-- ==== Sys2Proof/Word.lean ====
section
/-! DEFINITION. The number types of the block (spec/00_scope.md R17). -/

namespace Sys2Proof

/-- `u32`: an address, a name, a number, a size (R17). -/
abbrev Word := BitVec 32

/-- `u16`: a length or an index (R17). -/
abbrev Half := BitVec 16

/-- `u8`: one byte of the flash, an 8-bit pattern moved unchanged (R17, R163). -/
abbrev Byte := BitVec 8

/-- A selector, the 5-bit argument of `CtlIdx` (R12, R50(c)). -/
abbrev Selector := BitVec 5

end Sys2Proof
end

