-- ==== Sys2Proof/Config.lean ====
section
/-! DEFINITION. What an implementation fixes (spec/00_scope.md R9, R14, R16) and the free values, which no proof can see. -/

namespace Sys2Proof

/-- R14: which base the reported bounds of bank1's four 16KB sectors are computed from. -/
inductive B1sBase where
  | asBuilt    -- `B1S_BASE = BANK0_START`
  | corrected  -- `B1S_BASE = BANK1_START`
deriving DecidableEq, Repr

/-- R9, R14: the hard-wired parameters. State carries them so that a claim can be made for every configuration; no step writes them (R27). -/
structure Params where
  flashStart : Word
  flashEnd   : Word
  bank0Start : Word
  bank1Start : Word
  b1sBase    : B1sBase
deriving DecidableEq, Repr

/-- R16, R33: the controller's five status bits, by name; the spec gives them no bit positions. Used for the bits themselves and for a mask of them. -/
structure CtlFlags where
  endOfOperation       : Bool
  operationError       : Bool
  writeProtectError    : Bool
  programError         : Bool
  programSequenceError : Bool
deriving DecidableEq, Repr, Inhabited

/-- R24: the names of the six working latches. -/
inductive Latch where
  | cur | lenR | idx | selR | dbuf | obuf
deriving DecidableEq, Repr

/-- FREE VALUE (log entry 14): the byte the memory system gives for an address outside the flash region (R59, R164). -/
opaque Config.freeByte : Nat → Byte

/-- FREE VALUE (log entry 6): the status flags an operation of the reference controller leaves (R33, R199). -/
opaque Config.freeFlags : Nat → CtlFlags

/-- FREE VALUE (log entry 13): the error code a locked reference controller answers (R66). -/
opaque Config.freeErrorCode : Nat → Nat

/-- FREE VALUE (log entry 5): what a latch that holds no value reads as (R25: no rule reads one). -/
opaque Config.unloadedWord : Latch → Nat → Word

/-- FREE VALUE (log entry 5): what a byte sequence latch that holds no value reads as (R25). -/
opaque Config.unloadedBytes : Latch → Nat → List Byte

end Sys2Proof
end

