-- ==== Sys2Proof/Syntax.lean ====
section
/-! DEFINITION. The five commands as tagged tuples (spec/30_encoding.md R70, R71). -/

namespace Sys2Proof

/-- R70, R71: one constructor per row of spec/opcode_table.json, with the operand fields of its format. -/
inductive Instr where
  /-- format A, op 000 -/
  | resolve (address : Word)
  /-- format N, op 001 -/
  | name2num (name : Word)
  /-- format A, op 010 -/
  | erase (address : Word)
  /-- format S, op 011 -/
  | write (address : Word) (length : Half) (data : List Byte)
  /-- format L, op 100 -/
  | read (address : Word) (length : Half)
deriving DecidableEq, Repr

/-- R70: the 3-bit command code. -/
def Instr.opCode : Instr → BitVec 3
  | .resolve _ => 0
  | .name2num _ => 1
  | .erase _ => 2
  | .write _ _ _ => 3
  | .read _ _ => 4

end Sys2Proof
end

