-- ==== Sys2Proof/WellFormed.lean ====
section
/-! DEFINITION. Which commands are well formed (spec/30_encoding.md R73, R83) and which configurations are legal (spec/00_scope.md R10). -/

namespace Sys2Proof

/-- R73, R83: every operand value is well formed, but a WRITE carries at least `length` bytes of data. -/
def Instr.wf : Instr → Bool
  | .resolve _ => true
  | .name2num _ => true
  | .erase _ => true
  | .write _ length data => decide (length.toNat ≤ data.length)
  | .read _ _ => true

/-- R10: the constraints G1, G2 and G3, and the bound on `FLASH_END`. The sums are exact, so that no bank wraps (log entry 12). -/
def Params.legal (hw : Params) : Bool :=
  decide (hw.flashStart = hw.bank0Start)
    && decide (hw.bank1Start.toNat = hw.bank0Start.toNat + 0x100000)
    && decide (hw.flashEnd.toNat = hw.bank1Start.toNat + 0x1FFFFF)
    && decide (hw.flashEnd.toNat ≤ 0xFFFFFFFE)

end Sys2Proof
end

