-- ==== Sys2Proof/Decode.lean ====
section
/-! DEFINITION. A command's transaction as bytes, read and written. The fields and their order are spec/30_encoding.md R70 and R71; the byte layout is the model's own (DESIGN CHOICE, log entry 1): `op` in bits 2:0 of the first byte, then each operand field in whole bytes, least significant byte first. -/

namespace Sys2Proof

/-- Why a transaction is no command. -/
inductive DecodeError where
  /-- no byte at all -/
  | empty
  /-- R84: codes 5, 6 and 7 -/
  | reservedCode (op : BitVec 3)
  /-- R71: a field of the format is missing -/
  | truncated
  /-- R71: more than the format's fields -/
  | surplus
  /-- R73: a WRITE with fewer than `length` bytes of data -/
  | shortData
deriving DecidableEq, Repr

/-- The command code of a transaction's first byte (R70); bits 7:3 are padding and are not read. -/
def opField (b : Byte) : BitVec 3 := BitVec.ofNat 3 b.toNat

/-- A 32-bit field from its four bytes. -/
def word32 (b0 b1 b2 b3 : Byte) : Word :=
  BitVec.ofNat 32 (b0.toNat + 0x100 * b1.toNat + 0x10000 * b2.toNat + 0x1000000 * b3.toNat)

/-- A 16-bit field from its two bytes. -/
def half16 (b0 b1 : Byte) : Half := BitVec.ofNat 16 (b0.toNat + 0x100 * b1.toNat)

/-- The four bytes of a 32-bit field. -/
def bytes32 (v : Word) : List Byte :=
  [BitVec.ofNat 8 v.toNat, BitVec.ofNat 8 (v.toNat / 0x100), BitVec.ofNat 8 (v.toNat / 0x10000),
    BitVec.ofNat 8 (v.toNat / 0x1000000)]

/-- The two bytes of a 16-bit field. -/
def bytes16 (v : Half) : List Byte := [BitVec.ofNat 8 v.toNat, BitVec.ofNat 8 (v.toNat / 0x100)]

/-- Formats A and N (R71): one 32-bit operand. -/
def decodeWord (mk : Word → Instr) : List Byte → Except DecodeError Instr
  | [b0, b1, b2, b3] => .ok (mk (word32 b0 b1 b2 b3))
  | _ :: _ :: _ :: _ :: _ :: _ => .error .surplus
  | _ => .error .truncated

/-- Format S (R71, R73): address, length, and every further byte is data. -/
def decodeWrite : List Byte → Except DecodeError Instr
  | b0 :: b1 :: b2 :: b3 :: n0 :: n1 :: data =>
    if (half16 n0 n1).toNat ≤ data.length then
      .ok (.write (word32 b0 b1 b2 b3) (half16 n0 n1) data)
    else .error .shortData
  | _ => .error .truncated

/-- Format L (R71): address and length. -/
def decodeRead : List Byte → Except DecodeError Instr
  | [b0, b1, b2, b3, n0, n1] => .ok (.read (word32 b0 b1 b2 b3) (half16 n0 n1))
  | _ :: _ :: _ :: _ :: _ :: _ :: _ :: _ => .error .surplus
  | _ => .error .truncated

/-- R70, R84: the command code selects the format. -/
def decodeFields (op : BitVec 3) (operands : List Byte) : Except DecodeError Instr :=
  if op = 0 then decodeWord .resolve operands
  else if op = 1 then decodeWord .name2num operands
  else if op = 2 then decodeWord .erase operands
  else if op = 3 then decodeWrite operands
  else if op = 4 then decodeRead operands
  else .error (.reservedCode op)

/-- The command a transaction carries, or why it carries none. -/
def decode : List Byte → Except DecodeError Instr
  | [] => .error .empty
  | b :: operands => decodeFields (opField b) operands

/-- The first byte of a transaction: the code, padding zero. -/
def opByte (i : Instr) : Byte := BitVec.ofNat 8 i.opCode.toNat

/-- The operand fields of a command, in the order of its format (R71). -/
def encodeFields : Instr → List Byte
  | .resolve address => bytes32 address
  | .name2num name => bytes32 name
  | .erase address => bytes32 address
  | .write address length data => bytes32 address ++ bytes16 length ++ data
  | .read address length => bytes32 address ++ bytes16 length

/-- The transaction of a command. -/
def encode (i : Instr) : List Byte := opByte i :: encodeFields i

/-- How many bytes a command with code `op` has at least: the code byte and the fixed fields of its format (R71). -/
def frameLength (op : Nat) : Nat := if op = 3 ∨ op = 4 then 7 else 5

/-- The transaction whose bits are `w`, bit 0 the least significant of the first byte, with zeros above `nbits`. -/
def tableFrame (nbits w : Nat) : List Byte :=
  (List.range (max ((nbits + 7) / 8) (frameLength (w % 8)))).map
    fun k => BitVec.ofNat 8 (w % 2 ^ nbits / 2 ^ (8 * k))

/-- The command the decoder reads from an instruction whose bits are `w`, numbered as spec/opcode_table.json numbers them. -/
def decodeTableWord (nbits w : Nat) : Option Instr := (decode (tableFrame nbits w)).toOption

end Sys2Proof
end

