-- ==== Sys2Proof/Machine/Constants.lean ====
section
/-! DEFINITION. The constants of spec/00_scope.md R9 to R16: sizes, sentinels, `CtlIdx`, `FLAG_MASK`, the default configuration. -/

namespace Sys2Proof.Machine

/-- R11 -/
def size16KB : Word := 0x4000
/-- R11 -/
def size64KB : Word := 0x10000
/-- R11 -/
def size128KB : Word := 0x20000
/-- R11 -/
def size256KB : Word := 0x40000

/-- R13 (log entry 3) -/
def invalidName : Word := 0xFFFFFFFF
/-- R13 (log entry 3) -/
def invalidNumber : Word := 0xFFFFFFFF
/-- R13 (log entry 3) -/
def invalidSize : Word := 0xFFFFFFFF
/-- R13 (log entry 3) -/
def invalidAddr : Word := 0xFFFFFFFF

/-- R12: `CtlIdx(k) = zext_32(k)` (log entry 3). -/
def ctlIdx (k : Selector) : Word := k.setWidth 32

/-- R16: `FLAG_MASK`, the set of all five status bits (log entry 3). -/
def flagMask : CtlFlags := ⟨true, true, true, true, true⟩

/-- R9, R14: the default configuration (log entry 2). -/
def defaultParams : Params where
  flashStart := 0x08000000
  flashEnd := 0x082FFFFF
  bank0Start := 0x08000000
  bank1Start := 0x08100000
  b1sBase := .asBuilt

/-- R14: the address `B1S_BASE` stands for. -/
def b1sAddr (hw : Params) : Word :=
  match hw.b1sBase with
  | .asBuilt => hw.bank0Start
  | .corrected => hw.bank1Start

/-- R51, R101: does a byte address lie in `[FLASH_START, FLASH_END]`? -/
def inRegion (hw : Params) (a : Nat) : Bool :=
  decide (hw.flashStart.toNat ≤ a) && decide (a ≤ hw.flashEnd.toNat)

end Sys2Proof.Machine
end

