-- ==== Sys2Proof/Machine/Types.lean ====
section
/-! DEFINITION. The data the block and its neighbours exchange (spec/10_state.md R21, R26, R30, R34; spec/60_exceptions.md R171). -/

namespace Sys2Proof.Machine

/-- R30, R75: the record RESOLVE returns, its fields in the order of the payload. -/
structure SectorInfo where
  sectorName      : Word
  sectorNumber    : Word
  sectorSize      : Word
  sectorStartAddr : Word
  sectorEndAddr   : Word
deriving DecidableEq, Repr

/-- R15: the controller's answer; the block tests only whether it is `ready`. The error codes are the controller's (log entry 13). -/
inductive Status where
  | ready
  | busy
  | error (code : Nat)
deriving DecidableEq, Repr

/-- R171: the four causes of the fatal halt. -/
inductive HaltCause where
  | nameRange
  | eraseBadAddr
  | eraseFail
  | programFail
deriving DecidableEq, Repr

/-- R21: the eleven values of the sequencer's state register. -/
inductive Seq where
  | idle
  | erUnlock | erClear | erErase | erLock
  | wrUnlock | wrClear | wrProg | wrLock
  | rdByte
  | halted
deriving DecidableEq, Repr

/-- R74: what a response carries. -/
inductive Payload where
  /-- ERASE, WRITE: completion only -/
  | none
  /-- RESOLVE -/
  | info (si : SectorInfo)
  /-- NAME2NUM -/
  | number (n : Word)
  /-- READ -/
  | bytes (out : List Byte)
deriving DecidableEq, Repr

/-- R34: one interaction of the block with another agent. -/
inductive Event where
  | cmd (command : Instr)
  | rsp (payload : Payload)
  | unlock
  | lock
  | clearFlags (mask : CtlFlags)
  | erase (sectorNumber : Word) (status : Status)
  | program (address : Word) (value : Byte) (status : Status)
  | memRd (address : Word) (value : Byte)
  | halt (cause : HaltCause)
deriving DecidableEq, Repr

/-- R37, R66: one answer of the controller to one call, chosen by the environment (log entry 4). -/
inductive CtlReply where
  /-- the reference controller of R66 answers -/
  | reference
  /-- any other answer: this status, these flags, these bytes of the call's target changed (log entry 15) -/
  | scripted (status : Status) (flags : CtlFlags) (cells : List Host.Cell)
deriving DecidableEq, Repr

/-- R37, R59, R65: one answer of the memory system to one direct read, chosen by the environment (log entry 4). -/
inductive MemReply where
  /-- what the flash holds (R67) -/
  | contents
  /-- any byte -/
  | byte (value : Byte)
deriving DecidableEq, Repr

/-- R192, R193: what a reset in mid-command finds of the abandoned command: the controller's lock state (U20), its flags if the call in flight writes flags, and the bytes of the command's range that are not what they were (log entries 16 and 21). -/
structure Abandoned where
  unlocked : Bool
  flags    : CtlFlags
  cells    : List Host.Cell
deriving DecidableEq, Repr

end Sys2Proof.Machine
end

