-- ==== Sys2Proof/Machine/Memory.lean ====
section
/-! DEFINITION. The flash array's contents (spec/20_memory.md R50, R51, R67): a list of cells in one canonical form, addresses strictly rising, no cell equal to what an unlisted address reads as. -/

namespace Sys2Proof.Machine

/-- The contents of the flash array. -/
abbrev Memory := List Host.Cell

/-- What an unlisted byte reads as: the erased pattern of R67 (DESIGN CHOICE, log entry 7). -/
def unlistedByte : Byte := 0xFF

/-- The byte at an address. -/
def readCell (m : Memory) (a : Nat) : Byte :=
  match m with
  | [] => unlistedByte
  | c :: rest => if c.1 = a then c.2 else readCell rest a

/-- The cell list with the byte at `a` removed: `a` reads as unlisted. -/
def dropCell (m : Memory) (a : Nat) : Memory := m.filter fun c => decide (c.1 ≠ a)

/-- A cell put in its place of a list that does not hold its address. -/
def insertCell (m : Memory) (a : Nat) (b : Byte) : Memory :=
  match m with
  | [] => [(a, b)]
  | c :: rest => if a < c.1 then (a, b) :: c :: rest else c :: insertCell rest a b

/-- One byte written, canonical form kept. -/
def writeCell (m : Memory) (a : Nat) (b : Byte) : Memory :=
  if b = unlistedByte then dropCell m a else insertCell (dropCell m a) a b

/-- R67: every byte of `[first, last]` set to the erased pattern `0xFF`. -/
def eraseCells (m : Memory) (first last : Nat) : Memory :=
  m.filter fun c => decide (c.1 < first) || decide (last < c.1)

/-- The bytes of `cells` written, those only whose address the target admits and the flash region holds (log entry 15). -/
def patchCells (hw : Params) (target : Nat → Bool) (m : Memory) (cells : List Host.Cell) : Memory :=
  cells.foldl (fun m c => if target c.1 && inRegion hw c.1 then writeCell m c.1 c.2 else m) m

/-- The canonical form: addresses strictly rising, no cell that reads as unlisted. -/
def memoryWf (m : Memory) : Bool :=
  match m with
  | [] => true
  | c :: rest =>
    decide (c.2 ≠ unlistedByte) && rest.all (fun d => decide (c.1 < d.1)) && memoryWf rest

end Sys2Proof.Machine
end

