-- ==== Sys2Proof/Machine/State.lean ====
section
/-! DEFINITION. The machine's state as plain data, its stops, and the state after reset (spec/10_state.md, spec/70_reset_and_hazards.md R190). -/

namespace Sys2Proof.Machine

/-- Everything the spec gives the machine: the block's registers (R21, R24, R26), its hard-wired parameters (R27), the controller's and the flash's state that its steps change (R32, R33), the event history (R34), and what the environment does next (R37). -/
structure State where
  /-- R27: hard-wired, never written -/
  hw          : Params
  /-- R21: the sequencer's state register -/
  seq         : Seq
  /-- R26: holds a value only while halted -/
  haltCause   : Option HaltCause
  /-- R24, R25: the six working latches; `none` is the spec's "holds no value" (log entry 5) -/
  cur         : Option Word
  lenR        : Option Half
  idx         : Option Half
  selR        : Option Word
  dbuf        : Option (List Byte)
  obuf        : Option (List Byte)
  /-- R34: every event of the run, oldest first -/
  history     : List Event
  /-- R32, R66: the controller's lock state -/
  ctlUnlocked : Bool
  /-- R33: the controller's five status flags -/
  ctlFlags    : CtlFlags
  /-- R67: the flash array's contents -/
  flash       : Memory
  /-- R37, R72: the transactions the host offers, oldest first -/
  offers      : List (List Byte)
  /-- R37: the controller's coming answers, oldest first; none listed is a call not answered -/
  ctlReplies  : List CtlReply
  /-- R37: the memory system's coming answers, oldest first -/
  memReplies  : List MemReply
  /-- R37, R190: a reset the host asks for -/
  resetReq    : Option Abandoned
  /-- the model's own: how many free values were drawn (log entry 9) -/
  draws       : Nat
deriving DecidableEq, Repr

/-- Why the machine stops. -/
inductive Fault where
  /-- Raised by `step` in `HALTED`: the sequencer has no step there (R175, R176). Safe: the hardware does nothing either. -/
  | halted (cause : Option HaltCause)
deriving DecidableEq, Repr

/-- Why a step is refused. -/
inductive Refusal where
  /-- Raised by an arm of `exec` without a meaning: none is left. Safe: nothing is claimed of it. -/
  | notModelled (mnemonic : String)
  /-- Raised by `step` for a transaction that is no command of the machine (R71, R73, R84: "refuses such a command"). Safe: the spec gives it no step. -/
  | badCommand (why : DecodeError)
  /-- Raised by `exec` for a WRITE with fewer than `length` bytes of data (R73). Safe: the spec gives it no step. -/
  | shortData
  /-- Raised by `exec` outside `IDLE`: the command channel is not ready (R72). Safe: `step` never asks for it there. -/
  | channelNotReady
  /-- Raised by `step` under a configuration that breaks R10 ("A model refuses a configuration that breaks G1 to G3"). Safe: it is not this hardware. -/
  | illegalConfiguration
deriving DecidableEq, Repr

/-- R35, R190: the machine right after reset. The controller's lock state is that of R66; the flags, the flash, the history and the inputs are the model's choice (log entries 6, 7, 8). -/
def State.reset : State where
  hw := defaultParams
  seq := .idle
  haltCause := none
  cur := none
  lenR := none
  idx := none
  selR := none
  dbuf := none
  obuf := none
  history := []
  ctlUnlocked := false
  ctlFlags := ⟨false, false, false, false, false⟩
  flash := []
  offers := []
  ctlReplies := []
  memReplies := []
  resetReq := none
  draws := 0

end Sys2Proof.Machine
end

