-- ==== Sys2Proof/Machine/Flags.lean ====
section
/-! DEFINITION. The status bit and the flags (spec/10_state.md R26, R33; spec/60_exceptions.md R171). -/

namespace Sys2Proof.Machine

/-- R26: the block's one status bit, true exactly when `seq = HALTED`. -/
def isHalted (s : State) : Bool := decide (s.seq = .halted)

/-- R171: the 2-bit code `halt_cause` records. -/
def haltCode : HaltCause → BitVec 2
  | .nameRange => 0
  | .eraseBadAddr => 1
  | .eraseFail => 2
  | .programFail => 3

/-- R57: the controller's flags after `clear_flags(mask)`: every bit of the mask is cleared. -/
def clearedFlags (mask flags : CtlFlags) : CtlFlags where
  endOfOperation := flags.endOfOperation && !mask.endOfOperation
  operationError := flags.operationError && !mask.operationError
  writeProtectError := flags.writeProtectError && !mask.writeProtectError
  programError := flags.programError && !mask.programError
  programSequenceError := flags.programSequenceError && !mask.programSequenceError

/-- R32, R171: has the block issued an `Unlock` that no `Lock` has followed? -/
def bracketOpen (seq : Seq) (cause : Option HaltCause) : Bool :=
  match seq with
  | .idle | .erUnlock | .wrUnlock | .rdByte => false
  | .erClear | .erErase | .erLock | .wrClear | .wrProg | .wrLock => true
  | .halted => decide (cause = some .eraseFail) || decide (cause = some .programFail)

end Sys2Proof.Machine
end

