-- ==== Sys2Proof/Machine/Operands.lean ====
section
/-! DEFINITION. Operand forms: an address split into bank, offset and slot (spec/30_encoding.md R76), and the reading of a latch (spec/10_state.md R24, R25). -/

namespace Sys2Proof.Machine

/-- R76 stage 1, R102: is an in-region address in bank1? -/
def addrInBank1 (hw : Params) (address : Word) : Bool := decide (¬ address < hw.bank1Start)

/-- R76 stage 2: the offset in the address's bank. -/
def bankOffset (hw : Params) (address : Word) : Word :=
  if addrInBank1 hw address then address - hw.bank1Start else address - hw.bank0Start

/-- R76 stage 3: `quarter = offset / SIZE_16KB`. -/
def quarterOf (offset : Word) : Word := offset / size16KB

/-- R76 stage 3: `block = offset / SIZE_128KB`. -/
def block128Of (offset : Word) : Word := offset / size128KB

/-- R76 stage 3: `block = offset / SIZE_256KB`. -/
def block256Of (offset : Word) : Word := offset / size256KB

/-- The selector a 32-bit slot number stands for (R12: 5 bits). -/
def selectorOfSlot (v : Word) : Selector := v.setWidth 5

/-- R24: the latch `cur` read; a free value where it holds none (log entry 5). -/
def curVal (s : State) : Word := s.cur.getD (Config.unloadedWord .cur s.draws)

/-- R24: the latch `len_r` read. -/
def lenVal (s : State) : Half := s.lenR.getD ((Config.unloadedWord .lenR s.draws).setWidth 16)

/-- R24: the latch `idx` read. -/
def idxVal (s : State) : Half := s.idx.getD ((Config.unloadedWord .idx s.draws).setWidth 16)

/-- R24: the latch `sel_r` read. -/
def selVal (s : State) : Word := s.selR.getD (Config.unloadedWord .selR s.draws)

/-- R24: the latch `dbuf` read. -/
def dbufVal (s : State) : List Byte := s.dbuf.getD (Config.unloadedBytes .dbuf s.draws)

/-- R24: the latch `obuf` read. -/
def obufVal (s : State) : List Byte := s.obuf.getD (Config.unloadedBytes .obuf s.draws)

/-- R154: `dbuf[idx]`; a free byte where the sequence has no such element, which no run reaches (log entry 5). -/
def dataByte (s : State) : Byte :=
  ((dbufVal s)[(idxVal s).toNat]?).getD ((Config.unloadedWord .dbuf s.draws).setWidth 8)

end Sys2Proof.Machine
end

