-- ==== Sys2Proof/Machine/SectorTable.lean ====
section
/-! DEFINITION. The fixed tables: name to selector and back (spec/30_encoding.md R78, R81), the 28 sectors (R79), the physical sector of a sector_number (spec/20_memory.md R53), and the resolver's table form (spec/40_resolver.md R118). -/

namespace Sys2Proof.Machine

/-- R78, R131: the selector of a sector name, three ranges with two corrections; none above 0x1B. -/
def selectorOfName (name : Word) : Option Selector :=
  if name ≤ 0x0B then some (name.setWidth 5)
  else if name ≤ 0x17 then some ((name + 4).setWidth 5)
  else if name ≤ 0x1B then some ((name - 0xC).setWidth 5)
  else none

/-- R81: the inverse, on the 28 selectors that occur. The block has no command for it (R134). -/
def nameOfSelector (k : Selector) : Option Word :=
  if k ≤ 0x0B then some (k.setWidth 32)
  else if k ≤ 0x0F then some (k.setWidth 32 + 0xC)
  else if k ≤ 0x1B then some (k.setWidth 32 - 4)
  else none

/-- R79: one row. `first` and `last` are offsets in the bank; `fromB1s` marks the four rows whose reported bounds are computed from `B1S_BASE`. -/
structure SectorRow where
  name     : Word
  selector : Selector
  size     : Word
  inBank1  : Bool
  first    : Word
  last     : Word
  fromB1s  : Bool
deriving DecidableEq, Repr

/-- R79: the rows of bank0. -/
def bank0Rows : List SectorRow :=
  [⟨0x00, 0x00, 0x4000, false, 0x000000, 0x003FFF, false⟩,
   ⟨0x01, 0x01, 0x4000, false, 0x004000, 0x007FFF, false⟩,
   ⟨0x02, 0x02, 0x4000, false, 0x008000, 0x00BFFF, false⟩,
   ⟨0x03, 0x03, 0x4000, false, 0x00C000, 0x00FFFF, false⟩,
   ⟨0x04, 0x04, 0x10000, false, 0x010000, 0x01FFFF, false⟩,
   ⟨0x05, 0x05, 0x20000, false, 0x020000, 0x03FFFF, false⟩,
   ⟨0x06, 0x06, 0x20000, false, 0x040000, 0x05FFFF, false⟩,
   ⟨0x07, 0x07, 0x20000, false, 0x060000, 0x07FFFF, false⟩,
   ⟨0x08, 0x08, 0x20000, false, 0x080000, 0x09FFFF, false⟩,
   ⟨0x09, 0x09, 0x20000, false, 0x0A0000, 0x0BFFFF, false⟩,
   ⟨0x0A, 0x0A, 0x20000, false, 0x0C0000, 0x0DFFFF, false⟩,
   ⟨0x0B, 0x0B, 0x20000, false, 0x0E0000, 0x0FFFFF, false⟩]

/-- R79: the rows of bank1's first twelve sectors. -/
def bank1Rows : List SectorRow :=
  [⟨0x0C, 0x10, 0x4000, true, 0x000000, 0x003FFF, true⟩,
   ⟨0x0D, 0x11, 0x4000, true, 0x004000, 0x007FFF, true⟩,
   ⟨0x0E, 0x12, 0x4000, true, 0x008000, 0x00BFFF, true⟩,
   ⟨0x0F, 0x13, 0x4000, true, 0x00C000, 0x00FFFF, true⟩,
   ⟨0x10, 0x14, 0x10000, true, 0x010000, 0x01FFFF, false⟩,
   ⟨0x11, 0x15, 0x20000, true, 0x020000, 0x03FFFF, false⟩,
   ⟨0x12, 0x16, 0x20000, true, 0x040000, 0x05FFFF, false⟩,
   ⟨0x13, 0x17, 0x20000, true, 0x060000, 0x07FFFF, false⟩,
   ⟨0x14, 0x18, 0x20000, true, 0x080000, 0x09FFFF, false⟩,
   ⟨0x15, 0x19, 0x20000, true, 0x0A0000, 0x0BFFFF, false⟩,
   ⟨0x16, 0x1A, 0x20000, true, 0x0C0000, 0x0DFFFF, false⟩,
   ⟨0x17, 0x1B, 0x20000, true, 0x0E0000, 0x0FFFFF, false⟩]

/-- R79: the rows of bank1's four 256KB sectors. -/
def topRows : List SectorRow :=
  [⟨0x18, 0x0C, 0x40000, true, 0x100000, 0x13FFFF, false⟩,
   ⟨0x19, 0x0D, 0x40000, true, 0x140000, 0x17FFFF, false⟩,
   ⟨0x1A, 0x0E, 0x40000, true, 0x180000, 0x1BFFFF, false⟩,
   ⟨0x1B, 0x0F, 0x40000, true, 0x1C0000, 0x1FFFFF, false⟩]

/-- R79: the 28 sectors, in address order. -/
def sectorTable : List SectorRow := bank0Rows ++ bank1Rows ++ topRows

/-- The first byte of a row's bank. -/
def bankStart (hw : Params) (inBank1 : Bool) : Word := if inBank1 then hw.bank1Start else hw.bank0Start

/-- R79, R53: the first address of a row's resolving range, its physical sector. -/
def rowFirst (hw : Params) (r : SectorRow) : Nat := (bankStart hw r.inBank1).toNat + r.first.toNat

/-- R79, R53: the last address of a row's resolving range. -/
def rowLast (hw : Params) (r : SectorRow) : Nat := (bankStart hw r.inBank1).toNat + r.last.toNat

/-- R79: is the address one of those that resolve to the row? -/
def rowHolds (hw : Params) (a : Nat) (r : SectorRow) : Bool :=
  decide (rowFirst hw r ≤ a) && decide (a ≤ rowLast hw r)

/-- R79: the base of a row's reported bounds. -/
def rowBoundsBase (hw : Params) (r : SectorRow) : Word :=
  if r.fromB1s then b1sAddr hw else bankStart hw r.inBank1

/-- R79, R118: the record a row reports. -/
def rowInfo (hw : Params) (r : SectorRow) : SectorInfo where
  sectorName := r.name
  sectorNumber := ctlIdx r.selector
  sectorSize := r.size
  sectorStartAddr := rowBoundsBase hw r + r.first
  sectorEndAddr := rowBoundsBase hw r + r.last

/-- R75: the all-sentinel record. -/
def invalidInfo : SectorInfo := ⟨invalidName, invalidNumber, invalidSize, invalidAddr, invalidAddr⟩

/-- R118: the resolver as a lookup in the table of R79. -/
def tableResolve (hw : Params) (address : Word) : SectorInfo :=
  match sectorTable.find? (rowHolds hw address.toNat) with
  | some r => rowInfo hw r
  | none => invalidInfo

/-- R53: the row of the sector a sector_number selects. -/
def rowOfNumber (n : Word) : Option SectorRow := sectorTable.find? fun r => decide (ctlIdx r.selector = n)

/-- R80: is `n` the sector_number of one of the 28 sectors? -/
def isSectorNumber (n : Word) : Bool := sectorTable.any fun r => decide (ctlIdx r.selector = n)

/-- R53: is the address in the physical sector that sector_number `n` selects? -/
def inSector (hw : Params) (n : Word) (a : Nat) : Bool :=
  match rowOfNumber n with
  | some r => rowHolds hw a r
  | none => false

end Sys2Proof.Machine
end

