-- ==== Sys2Proof/Machine/Ops.lean ====
section
/-! DEFINITION. The named operations every meaning is built from: events and responses (spec/10_state.md R34, spec/30_encoding.md R72, R74), waiting for an answer (spec/60_exceptions.md R181), the fatal halt (R175) and the one way out of it, reset (spec/70_reset_and_hazards.md R190 to R193). -/

namespace Sys2Proof.Machine

/-- The three outcomes of one step. -/
abbrev StepOutcome := Host.Outcome State Fault Refusal

/-- R34: one event appended to the history. -/
def emit (e : Event) (s : State) : State := { s with history := s.history ++ [e] }

/-- R22: the sequencer moves to another state. -/
def goto (q : Seq) (s : State) : State := { s with seq := q }

/-- R154, R162: one byte is done: `cur` and `idx` one on, each in its own width (R61). -/
def advance (address : Word) (index : Half) (s : State) : State :=
  { s with cur := some (address + 1), idx := some (index + 1) }

/-- R37: the controller's oldest listed answer is used up. -/
def setCtlReplies (rest : List CtlReply) (s : State) : State := { s with ctlReplies := rest }

/-- R37: the memory system's oldest listed answer is used up. -/
def setMemReplies (rest : List MemReply) (s : State) : State := { s with memReplies := rest }

/-- R25: every latch holds no value. -/
def clearLatches (s : State) : State :=
  { s with cur := none, lenR := none, idx := none, selR := none, dbuf := none, obuf := none }

/-- R74: the response as the command's last event, `seq` back to `IDLE`. -/
def respond (p : Payload) (s : State) : State := goto .idle (emit (.rsp p) s)

/-- R74, R25: the normal end of a chain: the response, and its latches hold no value any more. -/
def endCommand (p : Payload) (s : State) : State := respond p (clearLatches s)

/-- R20, R175: the fatal halt, the block's one exception: cause recorded, `seq <- HALTED`, event `Halt(cause)`, nothing else. -/
def takeHalt (cause : HaltCause) (s : State) : State :=
  emit (.halt cause) { s with haltCause := some cause, seq := .halted }

/-- R72: a command is accepted only in `IDLE`; the acceptance emits `Cmd(command)` and is one step with what the command does in it. -/
def accept (i : Instr) (s : State) (act : State → State) : StepOutcome :=
  if s.seq = .idle then .next (act (emit (.cmd i) s)) else .refused .channelNotReady

/-- R19, R181: a blocking call of the controller: with an answer the step completes, without one the sequencer stays where it is (log entry 10). -/
def awaitController (s : State) (act : CtlReply → State → State) : StepOutcome :=
  match s.ctlReplies with
  | [] => .next s
  | r :: rest => .next (act r (setCtlReplies rest s))

/-- R58, R181: a direct read, waiting in the same way for the memory system. -/
def awaitMemory (s : State) (act : MemReply → State → State) : StepOutcome :=
  match s.memReplies with
  | [] => .next s
  | r :: rest => .next (act r (setMemReplies rest s))

/-- R193, U20: is the address in the flash range of the command in progress: the sector of an ERASE, `[address, address + length)` of a WRITE (addresses modulo 2^32)? -/
def inCommandRange (s : State) (a : Nat) : Bool :=
  match s.seq with
  | .erUnlock | .erClear | .erErase | .erLock => inSector s.hw (selVal s) a
  | .wrUnlock | .wrClear | .wrProg | .wrLock =>
    decide (a < 2 ^ 32)
      && decide ((BitVec.ofNat 32 a - (curVal s - (idxVal s).setWidth 32)).toNat < (lenVal s).toNat)
  | .idle | .rdByte | .halted => false

/-- R32, R57: does the state wait for a controller call that changes the lock state? -/
def lockCallInFlight : Seq → Bool
  | .erUnlock | .erLock | .wrUnlock | .wrLock => true
  | .idle | .erClear | .erErase | .wrClear | .wrProg | .rdByte | .halted => false

/-- R22, R57: does the state wait for a controller call? These are the eight states of an ERASE or a WRITE in progress. -/
def callInFlight : Seq → Bool
  | .erUnlock | .erClear | .erErase | .erLock | .wrUnlock | .wrClear | .wrProg | .wrLock => true
  | .idle | .rdByte | .halted => false

/-- R33, R57: does the state wait for a controller call that writes flags, which are the flag clear, the erase and the program? -/
def flagCallInFlight : Seq → Bool
  | .erClear | .erErase | .wrClear | .wrProg => true
  | .idle | .erUnlock | .erLock | .wrUnlock | .wrLock | .rdByte | .halted => false

/-- R192, R193, U20: what is found of the controller and the flash after a reset: unchanged where no ERASE or WRITE was in progress. After a mid-command reset the lock state is any value (U20), the flags are any where the call in flight writes flags and unchanged otherwise (a reset clears none), and the command's flash range is unknown (log entry 16). DESIGN CHOICE (log entry 21), unsafe: WHEN the call in flight finishes is left open by R193; here its whole effect, if it has one, lands in the reset step, so nothing of it arrives during a later command. -/
def abandonCall (found : Abandoned) (s : State) : State :=
  { s with
    ctlUnlocked := if callInFlight s.seq then found.unlocked else s.ctlUnlocked
    ctlFlags := if flagCallInFlight s.seq then found.flags else s.ctlFlags
    flash := patchCells s.hw (inCommandRange s) s.flash found.cells }

/-- R190, R192: a reset of the block: `IDLE`, not halted, no latch holds a value; the controller and the flash are as `abandonCall` leaves them. The only way out of `HALTED` (R176). -/
def resetBlock (found : Abandoned) (s : State) : State :=
  { clearLatches (abandonCall found s) with seq := .idle, haltCause := none, resetReq := none }

end Sys2Proof.Machine
end

