-- ==== Sys2Proof/Machine/Controller.lean ====
section
/-! DEFINITION. The controller's five calls and the direct read (spec/20_memory.md R57, R58), with the environment's answers: the reference environment of R66 and R67, or any other (log entry 4). -/

namespace Sys2Proof.Machine

/-- R32, R57: `Ctl.unlock()` has returned. -/
def ctlUnlock (s : State) : State := emit .unlock { s with ctlUnlocked := true }

/-- R32, R57: `Ctl.lock()` has returned. -/
def ctlLock (s : State) : State := emit .lock { s with ctlUnlocked := false }

/-- R57: `Ctl.clear_flags(FLAG_MASK)` has returned. -/
def ctlClearFlags (s : State) : State :=
  emit (.clearFlags flagMask) { s with ctlFlags := clearedFlags flagMask s.ctlFlags }

/-- R15, R66: the status an answer carries: what was scripted, or the reference controller's, ready exactly when it is unlocked. -/
def replyStatus (r : CtlReply) (s : State) : Status :=
  match r with
  | .reference => if s.ctlUnlocked then .ready else .error (Config.freeErrorCode s.draws)
  | .scripted st _ _ => st

/-- R33, R66: what an answered operation leaves of the controller and the flash: `success` is the contents after a successful operation of R67, `target` the bytes the call may change (log entries 6, 15). -/
def applyReply (r : CtlReply) (success : Memory) (target : Nat → Bool) (s : State) : State :=
  match r with
  | .reference =>
    { s with
      flash := if s.ctlUnlocked then success else s.flash
      ctlFlags := Config.freeFlags s.draws
      draws := s.draws + 1 }
  | .scripted _ flags cells =>
    { s with flash := patchCells s.hw target s.flash cells, ctlFlags := flags }

/-- R67, R53: the contents after a successful erase of the sector that `n` selects. -/
def erasedSector (hw : Params) (n : Word) (m : Memory) : Memory :=
  match rowOfNumber n with
  | some row => eraseCells m (rowFirst hw row) (rowLast hw row)
  | none => m

/-- R67: the contents after a successful program: old AND new at an address of the region. -/
def programmedByte (hw : Params) (a : Word) (v : Byte) (m : Memory) : Memory :=
  if inRegion hw a.toNat then writeCell m a.toNat (readCell m a.toNat &&& v) else m

/-- R57: `Ctl.erase(n)` has answered: its effects and its event. -/
def ctlErase (n : Word) (r : CtlReply) (s : State) : State :=
  emit (.erase n (replyStatus r s)) (applyReply r (erasedSector s.hw n s.flash) (inSector s.hw n) s)

/-- R57: `Ctl.program_byte(a, v)` has answered: its effects and its event. -/
def ctlProgram (a : Word) (v : Byte) (r : CtlReply) (s : State) : State :=
  emit (.program a v (replyStatus r s))
    (applyReply r (programmedByte s.hw a v s.flash) (fun x => decide (x = a.toNat)) s)

/-- R59, R65, R67: the byte the memory system answers at an address: any scripted byte; the contents inside the region; a free byte outside (log entry 14). -/
def readValue (a : Word) (r : MemReply) (s : State) : Byte :=
  match r with
  | .byte b => b
  | .contents => if inRegion s.hw a.toNat then readCell s.flash a.toNat else Config.freeByte s.draws

/-- Which answers of the memory system draw a free value. -/
def readDraws (a : Word) (r : MemReply) (s : State) : Nat :=
  match r with
  | .byte _ => 0
  | .contents => if inRegion s.hw a.toNat then 0 else 1

/-- R58: `MemRead(a, 1)` has answered: its event; no other effect (R56). -/
def memRead (a : Word) (r : MemReply) (s : State) : State :=
  emit (.memRd a (readValue a r s)) { s with draws := s.draws + readDraws a r s }

end Sys2Proof.Machine
end

