-- ==== Sys2Proof/Machine/Resolver.lean ====
section
/-! DEFINITION. The address-to-sector resolver, branch by branch (spec/40_resolver.md R101 to R111). -/

namespace Sys2Proof.Machine

/-- A record from its name, selector slot, size and first address (the bound formula of R103, R105, R108, R110, R111). -/
def sectorRecord (name slot size start : Word) : SectorInfo :=
  ⟨name, ctlIdx (selectorOfSlot slot), size, start, start + size - 1⟩

/-- R103, R104, R105: the record of a bank0 offset. -/
def resolveBank0 (hw : Params) (offset : Word) : SectorInfo :=
  let quarter := quarterOf offset
  if quarter < 4 then
    sectorRecord quarter quarter size16KB (hw.bank0Start + quarter * size16KB)
  else if quarter < 8 then
    ⟨4, ctlIdx 4, size64KB, hw.bank0Start + 0x10000, hw.bank0Start + 0x1FFFF⟩
  else
    let block := block128Of offset
    sectorRecord (block + 4) (block + 4) size128KB (hw.bank0Start + block * size128KB)

/-- R107 to R111: the record of a bank1 offset. -/
def resolveBank1 (hw : Params) (offset : Word) : SectorInfo :=
  let quarter := quarterOf offset
  if quarter < 4 then
    sectorRecord (quarter + 0xC) (quarter + 0x10) size16KB (b1sAddr hw + quarter * size16KB)
  else if quarter < 8 then
    ⟨0x10, ctlIdx 0x14, size64KB, hw.bank1Start + 0x10000, hw.bank1Start + 0x1FFFF⟩
  else if quarter < 64 then
    let block := block128Of offset
    sectorRecord (block + 0x10) (block + 0x14) size128KB (hw.bank1Start + block * size128KB)
  else
    let block := block256Of offset
    sectorRecord (block + 0x14) (block + 8) size256KB (hw.bank1Start + block * size256KB)

/-- R101, R102: `Resolve`, total and pure (R113). -/
def resolve (hw : Params) (address : Word) : SectorInfo :=
  if address < hw.flashStart ∨ hw.flashEnd < address then invalidInfo
  else if addrInBank1 hw address then resolveBank1 hw (bankOffset hw address)
  else resolveBank0 hw (bankOffset hw address)

end Sys2Proof.Machine
end

