-- ==== Sys2Proof/Machine/Erase.lean ====
section
/-! DEFINITION. The command ERASE: its acceptance and its chain (spec/42_erase_sequencer.md R140 to R145). -/

namespace Sys2Proof.Machine

/-- R141: resolve; outside the region the halt `ERASE_BAD_ADDR`, else the sector number latched and the chain entered. -/
def execErase (address : Word) (s : State) : StepOutcome :=
  accept (.erase address) s fun s =>
    let si := resolve s.hw address
    if si.sectorName = invalidName then takeHalt .eraseBadAddr s
    else goto .erUnlock { s with selR := some si.sectorNumber }

/-- R142 -/
def stepErUnlock (s : State) : StepOutcome :=
  awaitController s fun _ s => goto .erClear (ctlUnlock s)

/-- R143 -/
def stepErClear (s : State) : StepOutcome :=
  awaitController s fun _ s => goto .erErase (ctlClearFlags s)

/-- R144: one erase; anything but `Ready` is the halt `ERASE_FAIL`, the controller left unlocked. -/
def stepErErase (s : State) : StepOutcome :=
  awaitController s fun r s =>
    if replyStatus r s = .ready then goto .erLock (ctlErase (selVal s) r s)
    else takeHalt .eraseFail (ctlErase (selVal s) r s)

/-- R145: lock, then respond. -/
def stepErLock (s : State) : StepOutcome :=
  awaitController s fun _ s => endCommand .none (ctlLock s)

end Sys2Proof.Machine
end

