-- ==== Sys2Proof/Machine/Name2num.lean ====
section
/-! DEFINITION. The command NAME2NUM (spec/41_sector_index_decoder.md R130 to R132). -/

namespace Sys2Proof.Machine

/-- R130: the number of a name up to 0x1B; above it the halt `NAME_RANGE` (R132). -/
def execName2num (name : Word) (s : State) : StepOutcome :=
  accept (.name2num name) s fun s =>
    match selectorOfName name with
    | some k => respond (.number (ctlIdx k)) s
    | none => takeHalt .nameRange s

end Sys2Proof.Machine
end

