-- ==== Sys2Proof/Machine/Read.lean ====
section
/-! DEFINITION. The command READ: its acceptance and its loop (spec/44_byte_read.md R160 to R162). -/

namespace Sys2Proof.Machine

/-- R161: the latches loaded; a zero length responds at once, without a memory access. -/
def execRead (address : Word) (length : Half) (s : State) : StepOutcome :=
  accept (.read address length) s fun s =>
    let loaded : State := { s with cur := some address, lenR := some length, idx := some 0, obuf := some [] }
    if length = 0 then endCommand (.bytes []) loaded else goto .rdByte loaded

/-- R162: one byte read and appended; after the last the response. -/
def stepRdByte (s : State) : StepOutcome :=
  awaitMemory s fun r s =>
    let out := obufVal s ++ [readValue (curVal s) r s]
    let after := advance (curVal s) (idxVal s) { memRead (curVal s) r s with obuf := some out }
    if idxVal s + 1 < lenVal s then goto .rdByte after else endCommand (.bytes out) after

end Sys2Proof.Machine
end

