-- ==== Sys2Proof/Machine/Resolve.lean ====
section
/-! DEFINITION. The command RESOLVE (spec/40_resolver.md R100). -/

namespace Sys2Proof.Machine

/-- R100: accepted and answered in one step; no state read but the parameters, none written. -/
def execResolve (address : Word) (s : State) : StepOutcome :=
  accept (.resolve address) s fun s => respond (.info (resolve s.hw address)) s

end Sys2Proof.Machine
end

