-- ==== Sys2Proof/Machine/Write.lean ====
section
/-! DEFINITION. The command WRITE: its acceptance and its chain (spec/43_byte_program_sequencer.md R150 to R155). -/

namespace Sys2Proof.Machine

/-- R151: the latches loaded, the chain entered; a command with too little data is refused (R73). -/
def execWrite (address : Word) (length : Half) (data : List Byte) (s : State) : StepOutcome :=
  if length.toNat ≤ data.length then
    accept (.write address length data) s fun s =>
      goto .wrUnlock
        { s with
          cur := some address
          lenR := some length
          idx := some 0
          dbuf := some (data.take length.toNat) }
  else .refused .shortData

/-- R152 -/
def stepWrUnlock (s : State) : StepOutcome :=
  awaitController s fun _ s => goto .wrClear (ctlUnlock s)

/-- R153: the flags cleared once; no byte to program goes straight to the lock. -/
def stepWrClear (s : State) : StepOutcome :=
  awaitController s fun _ s =>
    goto (if lenVal s = 0 then .wrLock else .wrProg) (ctlClearFlags s)

/-- R154: one byte; anything but `Ready` is the halt `PROGRAM_FAIL`, `cur` and `idx` not advanced. -/
def stepWrProg (s : State) : StepOutcome :=
  awaitController s fun r s =>
    let after := ctlProgram (curVal s) (dataByte s) r s
    if replyStatus r s = .ready then
      goto (if idxVal s + 1 < lenVal s then .wrProg else .wrLock) (advance (curVal s) (idxVal s) after)
    else takeHalt .programFail after

/-- R155: lock, then respond. -/
def stepWrLock (s : State) : StepOutcome :=
  awaitController s fun _ s => endCommand .none (ctlLock s)

end Sys2Proof.Machine
end

