-- ==== Sys2Proof/Machine/Dispatch.lean ====
section
/-! DEFINITION. The meaning of each command (spec/30_encoding.md R70): its accepting step (R72). -/

namespace Sys2Proof.Machine

def exec (i : Instr) (s : State) : Host.Outcome State Fault Refusal :=
  match i with
  | .resolve address => Sys2Proof.Machine.execResolve address s
  | .name2num name => Sys2Proof.Machine.execName2num name s
  | .erase address => Sys2Proof.Machine.execErase address s
  | .write address length data => Sys2Proof.Machine.execWrite address length data s
  | .read address length => Sys2Proof.Machine.execRead address length s

end Sys2Proof.Machine
end

