-- ==== Sys2Proof/Machine/Sequencer.lean ====
section
/-! DEFINITION. What the sequencer does next: the command it takes in `IDLE` and the action of every other state (spec/10_state.md R22, spec/30_encoding.md R72). -/

namespace Sys2Proof.Machine

/-- R37, R72: what the host offers at a step in `IDLE`. -/
inductive Offered where
  /-- no command: the block waits (R191) -/
  | nothing
  /-- a transaction that is no command (R71, R73, R84) -/
  | bad (why : DecodeError)
  /-- a command, and the state without the offer -/
  | command (i : Instr) (s : State)

/-- The oldest offered transaction, taken and decoded. -/
def nextOffer (s : State) : Offered :=
  match s.offers with
  | [] => .nothing
  | frame :: rest =>
    match decode frame with
    | .error why => .bad why
    | .ok i => .command i { s with offers := rest }

/-- R22: the action of each state but `IDLE`; `HALTED` has none (R175). In `IDLE` the block waits, for `step` takes the offers. -/
def chainStep (s : State) : StepOutcome :=
  match s.seq with
  | .idle => .next s
  | .erUnlock => stepErUnlock s
  | .erClear => stepErClear s
  | .erErase => stepErErase s
  | .erLock => stepErLock s
  | .wrUnlock => stepWrUnlock s
  | .wrClear => stepWrClear s
  | .wrProg => stepWrProg s
  | .wrLock => stepWrLock s
  | .rdByte => stepRdByte s
  | .halted => .fault (.halted s.haltCause)

/-- R22, R37, R72, R190: one step, `run` being the accepting step of a command. A configuration that breaks R10 is refused; a reset asked for comes first; in `IDLE` an offered command is taken; otherwise the action of the sequencer's state. -/
def oneStep (run : Instr → State → StepOutcome) (s : State) : StepOutcome :=
  if s.hw.legal then
    match s.resetReq with
    | some found => .next (resetBlock found s)
    | none =>
      if s.seq = .idle then
        match nextOffer s with
        | .nothing => .next s
        | .bad why => .refused (.badCommand why)
        | .command i t => run i t
      else chainStep s
  else .refused .illegalConfiguration

/-- The state whose next step in `IDLE` takes this transaction first. -/
def offerFirst (frame : List Byte) (s : State) : State :=
  { s with offers := frame :: s.offers, seq := .idle, resetReq := none }

end Sys2Proof.Machine
end

