-- ==== Sys2Proof/Machine/Step.lean ====
section
/-! DEFINITION. One step of the machine (spec/10_state.md R22, R37): a reset asked for, a command taken in `IDLE`, or the action of the sequencer's state. -/

namespace Sys2Proof.Machine

/-- R22: one step of the sequencer. -/
def step (s : State) : Host.Outcome State Fault Refusal := oneStep exec s

/-- The state whose next step takes the instruction whose bits are `w`, numbered as spec/opcode_table.json numbers them. -/
def State.withFetchWord (s : State) (nbits w : Nat) : State := offerFirst (tableFrame nbits w) s

end Sys2Proof.Machine
end

