-- ==== Sys2Proof/Safety.lean ====
section
/-! DEFINITION. What a good state and a good run are, in the terms the claims use (spec/10_state.md R23 to R26, R32, R36; spec/60_exceptions.md R178, R181). -/

namespace Sys2Proof.Machine

/-- R36: a finite run: `k` steps, ended by the first stop. -/
def runSteps : Nat → State → StepOutcome
  | 0, s => .next s
  | k + 1, s =>
    match step s with
    | .next t => runSteps k t
    | .fault why => .fault why
    | .refused why => .refused why

/-- R25: no latch holds a value. -/
def LatchesEmpty (s : State) : Prop :=
  s.cur = none ∧ s.lenR = none ∧ s.idx = none ∧ s.selR = none ∧ s.dbuf = none ∧ s.obuf = none

/-- R24, R80: the latches of an ERASE in progress: `sel_r` holds the number of one of the 28 sectors, the others nothing. -/
def EraseLatches (s : State) : Prop :=
  (∃ n, s.selR = some n ∧ isSectorNumber n = true) ∧
    s.cur = none ∧ s.lenR = none ∧ s.idx = none ∧ s.dbuf = none ∧ s.obuf = none

/-- R24: the latches of a WRITE in progress, `idx` and `len_r` related as `rel` says. -/
def WriteLatches (rel : Nat → Nat → Prop) (s : State) : Prop :=
  (∃ a n i d, s.cur = some a ∧ s.lenR = some n ∧ s.idx = some i ∧ s.dbuf = some d ∧
      d.length = n.toNat ∧ rel i.toNat n.toNat) ∧
    s.selR = none ∧ s.obuf = none

/-- R24: the latches of a READ in progress: `obuf` holds the `idx` bytes read so far, and bytes remain. -/
def ReadLatches (s : State) : Prop :=
  (∃ a n i o, s.cur = some a ∧ s.lenR = some n ∧ s.idx = some i ∧ s.obuf = some o ∧
      o.length = i.toNat ∧ i.toNat < n.toNat) ∧
    s.selR = none ∧ s.dbuf = none

/-- R23 to R26, R154, R162, R173: which latches hold a value in each state of the sequencer, and when `halt_cause` does. -/
def LatchInv (s : State) : Prop :=
  match s.seq with
  | .idle => LatchesEmpty s ∧ s.haltCause = none
  | .erUnlock | .erClear | .erErase | .erLock => EraseLatches s ∧ s.haltCause = none
  | .wrUnlock | .wrClear => WriteLatches (fun i _ => i = 0) s ∧ s.haltCause = none
  | .wrProg => WriteLatches (fun i n => i < n) s ∧ s.haltCause = none
  | .wrLock => WriteLatches (fun i n => i = n) s ∧ s.haltCause = none
  | .rdByte => ReadLatches s ∧ s.haltCause = none
  | .halted =>
    match s.haltCause with
    | some .nameRange | some .eraseBadAddr => LatchesEmpty s
    | some .eraseFail => EraseLatches s
    | some .programFail => WriteLatches (fun i n => i < n) s
    | none => False

/-- R80, U4: every `Erase` event of the history carries the number of one of the 28 sectors. -/
def EraseEventsInv (s : State) : Prop :=
  ∀ n st, Event.erase n st ∈ s.history → isSectorNumber n = true

/-- R32: how many of the block's `Unlock` events no `Lock` has followed, as the sequencer's state says. -/
def BracketInv (s : State) : Prop :=
  s.history.count .unlock = s.history.count .lock + (if bracketOpen s.seq s.haltCause then 1 else 0) ∧
    s.ctlUnlocked = bracketOpen s.seq s.haltCause

/-- R10, and the flash contents in their canonical form. -/
def MemoryInv (s : State) : Prop := s.hw.legal = true ∧ memoryWf s.flash = true

/-- R36: the run has ended normally: no command offered, none in progress. -/
def EndedNormally (s : State) : Prop := s.offers = [] ∧ s.seq = .idle

/-- R36, R178: a failed end. -/
def FailedEnd (s : State) : Prop := s.seq = .halted

/-- R23: an ERASE is in progress. -/
def EraseInProgress (q : Seq) : Prop := q = .erUnlock ∨ q = .erClear ∨ q = .erErase ∨ q = .erLock

/-- R23: a WRITE is in progress. -/
def WriteInProgress (q : Seq) : Prop := q = .wrUnlock ∨ q = .wrClear ∨ q = .wrProg ∨ q = .wrLock

/-- R181: the sequencer waits for an answer that has not come. -/
def Waiting (s : State) : Prop :=
  (callInFlight s.seq = true ∧ s.ctlReplies = []) ∨ (s.seq = .rdByte ∧ s.memReplies = [])

/-- R23: the transitions of the sequencer's state register that a command's steps make. -/
def SeqMove : Seq → Seq → Prop
  | .idle, t => t = .idle ∨ t = .halted ∨ t = .erUnlock ∨ t = .wrUnlock ∨ t = .rdByte
  | .erUnlock, t => t = .erClear
  | .erClear, t => t = .erErase
  | .erErase, t => t = .erLock ∨ t = .halted
  | .erLock, t => t = .idle
  | .wrUnlock, t => t = .wrClear
  | .wrClear, t => t = .wrProg ∨ t = .wrLock
  | .wrProg, t => t = .wrProg ∨ t = .wrLock ∨ t = .halted
  | .wrLock, t => t = .idle
  | .rdByte, t => t = .rdByte ∨ t = .idle
  | .halted, _ => False

/-- The configuration is legal (R10) and no reset is asked for: the next step is the sequencer's own. -/
def Enabled (s : State) : Prop := s.hw.legal = true ∧ s.resetReq = none

/-- R66, R144, R154: an answer that reads as `Ready` from an unlocked controller: the reference controller's, or a scripted `Ready`. -/
def AnswersReady (r : CtlReply) : Prop :=
  r = .reference ∨ ∃ flags cells, r = .scripted .ready flags cells

/-- R144, R154: a scripted answer with a status other than `Ready`. -/
def AnswersNonReady (st : Status) (r : CtlReply) : Prop :=
  st ≠ .ready ∧ ∃ flags cells, r = .scripted st flags cells

/-- R158: the events of programming `data` from `address` on, every call answered `Ready`. -/
def programEvents (address : Word) : List Byte → List Event
  | [] => []
  | v :: rest => .program address v .ready :: programEvents (address + 1) rest

/-- R160, R162: the events of reading `out` from `address` on. -/
def readEvents (address : Word) : List Byte → List Event
  | [] => []
  | v :: rest => .memRd address v :: readEvents (address + 1) rest

/-- R59, R65, R67: may the memory system's answer `r` be the byte `b` at an address: a scripted byte is itself, the contents of an address of the region are the flash's, and outside the region any byte. -/
def MayRead (s : State) (address : Word) (r : MemReply) (b : Byte) : Prop :=
  match r with
  | .byte v => b = v
  | .contents => inRegion s.hw address.toNat = true → b = readCell s.flash address.toNat

/-- R162: the bytes `out` answer the reads from `address` on as `replies` say. -/
def MayReadAll (s : State) (address : Word) : List MemReply → List Byte → Prop
  | [], [] => True
  | r :: rs, b :: bs => MayRead s address r b ∧ MayReadAll s (address + 1) rs bs
  | _, _ => False

end Sys2Proof.Machine
end

