-- ==== Sys2Proof/Certificates/Slice0/Obligations.lean ====
section
/-! DEFINITION. The statements for the provers. Each docstring names the rule of spec/ it formalises. -/

open Sys2Proof Sys2Proof.Machine

/-! Commands and transactions -/

/-- R70, R71 (the byte layout is the model's choice, log entry 1): every well-formed command is read back from its transaction, every operand at every value. -/
def Obligations.DecodeOfEncodeIsTheCommand : Prop :=
  ∀ i : Instr, i.wf = true → decode (encode i) = .ok i

/-- The other direction (log entry 1): a transaction that decodes is the encoding of a well-formed command, but for the padding of its first byte. -/
def Obligations.DecodedTransactionIsItsEncoding : Prop :=
  ∀ (frame : List Byte) (i : Instr), decode frame = .ok i →
    i.wf = true ∧ ∃ b operands, frame = b :: operands ∧ opField b = i.opCode ∧ encode i = opByte i :: operands

/-- R70, R71 in the layout of log entry 1: one transaction a command, written out byte by byte. -/
def Obligations.KnownTransactionsDecode : Prop :=
  decode [0x00, 0x00, 0x40, 0x00, 0x08] = .ok (.resolve 0x08004000) ∧
  decode [0x01, 0x1B, 0x00, 0x00, 0x00] = .ok (.name2num 0x1B) ∧
  decode [0x02, 0x34, 0x12, 0x20, 0x08] = .ok (.erase 0x08201234) ∧
  decode [0x03, 0x00, 0x00, 0x20, 0x08, 0x03, 0x00, 0x12, 0x80, 0xFF] =
    .ok (.write 0x08200000 3 [0x12, 0x80, 0xFF]) ∧
  decode [0x04, 0xFF, 0xFF, 0x1F, 0x08, 0x02, 0x00] = .ok (.read 0x081FFFFF 2)

/-- R84: a transaction with code 5, 6 or 7 is refused, whatever follows the code. -/
def Obligations.ReservedCodeIsRefused : Prop :=
  ∀ (s : State) (b : Byte) (operands : List Byte) (rest : List (List Byte)),
    Enabled s → s.seq = .idle → s.offers = (b :: operands) :: rest → 5 ≤ (opField b).toNat →
    step s = .refused (.badCommand (.reservedCode (opField b)))

/-- R73: a WRITE with fewer than `length` bytes of data is refused, offered as a transaction or handed to `exec`; with enough data only the first `length` are used. -/
def Obligations.ShortWriteIsRefused : Prop :=
  (∀ (s : State) (a : Word) (n : Half) (d : List Byte) (rest : List (List Byte)),
    d.length < n.toNat →
    exec (.write a n d) s = .refused .shortData ∧
    (Enabled s → s.seq = .idle → s.offers = encode (.write a n d) :: rest →
      step s = .refused (.badCommand .shortData))) ∧
  (∀ (s : State) (a : Word) (n : Half) (d extra : List Byte),
    s.seq = .idle → d.length = n.toNat →
    ∃ t, exec (.write a n (d ++ extra)) s = .next t ∧ t.dbuf = some d)

/-- R72 and the step of `IDLE` in R22: an offered transaction that decodes is run by the step, the offer taken. -/
def Obligations.StepRunsTheDecodedCommand : Prop :=
  ∀ (s : State) (i : Instr) (frame : List Byte) (rest : List (List Byte)),
    Enabled s → s.seq = .idle → s.offers = frame :: rest → decode frame = .ok i →
    step s = exec i { s with offers := rest }

/-- R72: outside `IDLE` no command is accepted, by `exec` or by a step, and the offers wait; in `IDLE` the acceptance emits `Cmd(command)` first and no other `Cmd`. -/
def Obligations.CommandAcceptedOnlyInIdle : Prop :=
  (∀ (i : Instr) (s : State), s.seq ≠ .idle → ∃ why, exec i s = .refused why) ∧
  (∀ s t : State, s.seq ≠ .idle → step s = .next t → t.offers = s.offers ∧
    ∃ events, t.history = s.history ++ events ∧ ∀ i, Event.cmd i ∉ events) ∧
  (∀ (i : Instr) (s t : State), exec i s = .next t →
    ∃ events, t.history = s.history ++ .cmd i :: events ∧ ∀ j, Event.cmd j ∉ events)

/-- R191, R22: with no command offered the block waits in `IDLE`. -/
def Obligations.IdleBlockWaitsForACommand : Prop :=
  ∀ s : State, Enabled s → s.seq = .idle → s.offers = [] → step s = .next s

/-- R10 (no bank wraps: log entry 12): a configuration that breaks a constraint is refused at every step. -/
def Obligations.IllegalConfigurationIsRefused : Prop :=
  ∀ s : State,
    (s.hw.flashStart ≠ s.hw.bank0Start ∨ s.hw.bank1Start.toNat ≠ s.hw.bank0Start.toNat + 0x100000 ∨
      s.hw.flashEnd.toNat ≠ s.hw.bank1Start.toNat + 0x1FFFFF ∨ s.hw.flashEnd = 0xFFFFFFFF) →
    step s = .refused .illegalConfiguration

/-! The resolver -/

/-- R101: outside the region the all-sentinel record; both bounds are inside; the corner cases of the default configuration. -/
def Obligations.ResolveOutsideRegionIsInvalid : Prop :=
  (∀ (hw : Params) (a : Word), a < hw.flashStart ∨ hw.flashEnd < a →
    resolve hw a = ⟨0xFFFFFFFF, 0xFFFFFFFF, 0xFFFFFFFF, 0xFFFFFFFF, 0xFFFFFFFF⟩) ∧
  (∀ hw : Params, hw.legal = true →
    (resolve hw hw.flashStart).sectorName = 0 ∧ (resolve hw hw.flashEnd).sectorName = 0x1B) ∧
  resolve defaultParams (defaultParams.flashStart - 1) = invalidInfo ∧
  resolve defaultParams (defaultParams.flashEnd + 1) = invalidInfo ∧
  resolve defaultParams 0 = invalidInfo ∧ resolve defaultParams 0xFFFFFFFF = invalidInfo

/-- R103: bank0, quarters 0 to 3. -/
def Obligations.ResolveBank0SmallSector : Prop :=
  ∀ (hw : Params) (quarter o : Word), hw.legal = true → quarter < 4 → o < 0x4000 →
    resolve hw (hw.bank0Start + quarter * 0x4000 + o) =
      ⟨quarter, ctlIdx (BitVec.ofNat 5 quarter.toNat), 0x4000,
        hw.bank0Start + quarter * 0x4000, hw.bank0Start + quarter * 0x4000 + 0x3FFF⟩

/-- R104: bank0, quarters 4 to 7, one merged sector. -/
def Obligations.ResolveBank0MergedSector : Prop :=
  ∀ (hw : Params) (o : Word), hw.legal = true → 0x10000 ≤ o → o < 0x20000 →
    resolve hw (hw.bank0Start + o) =
      ⟨4, ctlIdx 4, 0x10000, hw.bank0Start + 0x10000, hw.bank0Start + 0x1FFFF⟩

/-- R105: bank0, the 128KB sectors, blocks 1 to 7. -/
def Obligations.ResolveBank0LargeSector : Prop :=
  ∀ (hw : Params) (block o : Word), hw.legal = true → 1 ≤ block → block ≤ 7 → o < 0x20000 →
    resolve hw (hw.bank0Start + block * 0x20000 + o) =
      ⟨block + 4, ctlIdx (BitVec.ofNat 5 (block.toNat + 4)), 0x20000,
        hw.bank0Start + block * 0x20000, hw.bank0Start + block * 0x20000 + 0x1FFFF⟩

/-- R108: bank1, quarters 0 to 3, under both values of `B1S_BASE`. -/
def Obligations.ResolveBank1SmallSector : Prop :=
  ∀ (hw : Params) (quarter o : Word), hw.legal = true → quarter < 4 → o < 0x4000 →
    let base := match hw.b1sBase with | .asBuilt => hw.bank0Start | .corrected => hw.bank1Start
    resolve hw (hw.bank1Start + quarter * 0x4000 + o) =
      ⟨quarter + 0xC, ctlIdx (BitVec.ofNat 5 (quarter.toNat + 0x10)), 0x4000,
        base + quarter * 0x4000, base + quarter * 0x4000 + 0x3FFF⟩

/-- R109: bank1, quarters 4 to 7, one merged sector. -/
def Obligations.ResolveBank1MergedSector : Prop :=
  ∀ (hw : Params) (o : Word), hw.legal = true → 0x10000 ≤ o → o < 0x20000 →
    resolve hw (hw.bank1Start + o) =
      ⟨0x10, ctlIdx 0x14, 0x10000, hw.bank1Start + 0x10000, hw.bank1Start + 0x1FFFF⟩

/-- R110: bank1, the 128KB sectors, blocks 1 to 7. -/
def Obligations.ResolveBank1LargeSector : Prop :=
  ∀ (hw : Params) (block o : Word), hw.legal = true → 1 ≤ block → block ≤ 7 → o < 0x20000 →
    resolve hw (hw.bank1Start + block * 0x20000 + o) =
      ⟨block + 0x10, ctlIdx (BitVec.ofNat 5 (block.toNat + 0x14)), 0x20000,
        hw.bank1Start + block * 0x20000, hw.bank1Start + block * 0x20000 + 0x1FFFF⟩

/-- R111: bank1, the 256KB sectors, blocks 4 to 7. -/
def Obligations.ResolveBank1ExtraLargeSector : Prop :=
  ∀ (hw : Params) (block o : Word), hw.legal = true → 4 ≤ block → block ≤ 7 → o < 0x40000 →
    resolve hw (hw.bank1Start + block * 0x40000 + o) =
      ⟨block + 0x14, ctlIdx (BitVec.ofNat 5 (block.toNat + 8)), 0x40000,
        hw.bank1Start + block * 0x40000, hw.bank1Start + block * 0x40000 + 0x3FFFF⟩

/-- The table form of R118, which the spec marks as its own inference from R101 to R111: the branch form and the table form are the same function; exactly one row of R79 matches an in-region address and none an address outside. -/
def Obligations.ResolverEqualsSectorTable : Prop :=
  ∀ (hw : Params) (a : Word), hw.legal = true →
    resolve hw a = tableResolve hw a ∧
    sectorTable.countP (rowHolds hw a.toNat) = if inRegion hw a.toNat then 1 else 0

/-- The record kinds of R31, which the spec marks as its own inference from R101 to R111: a record is all valid or all sentinels, and when the bounds hold the address. -/
def Obligations.RecordIsValidOrAllSentinels : Prop :=
  ∀ (hw : Params) (a : Word), hw.legal = true →
    let si := resolve hw a
    (inRegion hw a.toNat = false → si = invalidInfo) ∧
    (inRegion hw a.toNat = true →
      si.sectorName ≤ 0x1B ∧
      (∃ r ∈ sectorTable, r.name = si.sectorName ∧ si.sectorNumber = ctlIdx r.selector) ∧
      (si.sectorSize = 0x4000 ∨ si.sectorSize = 0x10000 ∨ si.sectorSize = 0x20000 ∨ si.sectorSize = 0x40000) ∧
      si.sectorEndAddr = si.sectorStartAddr + si.sectorSize - 1 ∧
      ((hw.b1sBase = .asBuilt ∧ 0xC ≤ si.sectorName ∧ si.sectorName ≤ 0xF) →
        hw.bank0Start ≤ si.sectorStartAddr ∧ si.sectorStartAddr ≤ si.sectorEndAddr ∧
          si.sectorEndAddr < hw.bank1Start ∧ hw.bank1Start ≤ a) ∧
      (¬ (hw.b1sBase = .asBuilt ∧ 0xC ≤ si.sectorName ∧ si.sectorName ≤ 0xF) →
        si.sectorStartAddr ≤ a ∧ a ≤ si.sectorEndAddr))

/-- Adjacency, R116, which the spec marks as its own inference from R103 to R111: consecutive names in a bank have adjacent reported bounds, but the pair (0xF, 0x10) as-built; the resolving ranges are adjacent without exception and cover the region. -/
def Obligations.ConsecutiveSectorsAreAdjacent : Prop :=
  (∀ (hw : Params) (a b : Word), hw.legal = true →
    inRegion hw a.toNat = true → inRegion hw b.toNat = true →
    (resolve hw b).sectorName = (resolve hw a).sectorName + 1 → (resolve hw a).sectorName ≠ 0xB →
    ((hw.b1sBase = .asBuilt ∧ (resolve hw a).sectorName = 0xF) →
      (resolve hw a).sectorEndAddr + 1 = hw.bank0Start + 0x10000 ∧
        (resolve hw b).sectorStartAddr = hw.bank1Start + 0x10000) ∧
    (¬ (hw.b1sBase = .asBuilt ∧ (resolve hw a).sectorName = 0xF) →
      (resolve hw b).sectorStartAddr = (resolve hw a).sectorEndAddr + 1)) ∧
  (∀ hw : Params, hw.legal = true →
    sectorTable.head?.map (rowFirst hw) = some hw.flashStart.toNat ∧
    sectorTable.getLast?.map (rowLast hw) = some hw.flashEnd.toNat ∧
    List.IsChain (fun r next => rowFirst hw next = rowLast hw r + 1) sectorTable)

/-- Monotonicity, R117, which the spec marks as its own inference from R103 to R111: names rise with the address and take every value; numbers follow the three ranges; sizes rise in a bank and drop at `BANK1_START`. -/
def Obligations.NamesRiseWithTheAddress : Prop :=
  ∀ hw : Params, hw.legal = true →
    (∀ a b : Word, hw.flashStart ≤ a → a ≤ b → b ≤ hw.flashEnd →
      (resolve hw a).sectorName ≤ (resolve hw b).sectorName) ∧
    (∀ name : Word, name ≤ 0x1B → ∃ a : Word, inRegion hw a.toNat = true ∧ (resolve hw a).sectorName = name) ∧
    (∀ a : Word, inRegion hw a.toNat = true →
      let name := (resolve hw a).sectorName
      (resolve hw a).sectorNumber =
        if name ≤ 0xB then name else if name ≤ 0x17 then name + 4 else name - 0xC) ∧
    (∀ a b : Word, hw.flashStart ≤ a → a ≤ b → b ≤ hw.flashEnd → (b < hw.bank1Start ∨ hw.bank1Start ≤ a) →
      (resolve hw a).sectorSize ≤ (resolve hw b).sectorSize) ∧
    (resolve hw (hw.bank1Start - 1)).sectorSize = 0x20000 ∧ (resolve hw hw.bank1Start).sectorSize = 0x4000

/-- R112, which the spec marks as its own inference: the resolver's inline selector agrees with the standalone lookup of R78. -/
def Obligations.InlineNumberAgreesWithLookup : Prop :=
  ∀ (hw : Params) (a : Word), hw.legal = true → inRegion hw a.toNat = true →
    ∃ k, selectorOfName (resolve hw a).sectorName = some k ∧ (resolve hw a).sectorNumber = ctlIdx k

/-- R119 and R120 (the second marked as the spec's own inference): addresses of one name have one record, so no name comes from two branches, and name 4 is the merged window's alone. -/
def Obligations.OneNameHasOneRecord : Prop :=
  ∀ (hw : Params) (a b : Word), hw.legal = true → inRegion hw a.toNat = true → inRegion hw b.toNat = true →
    ((resolve hw a).sectorName = (resolve hw b).sectorName → resolve hw a = resolve hw b) ∧
    ((resolve hw a).sectorName = 4 ↔ hw.bank0Start + 0x10000 ≤ a ∧ a ≤ hw.bank0Start + 0x1FFFF)

/-- R78, and R81, which the spec marks as its own inference: the name to selector mapping and its inverse, each undone by the other. -/
def Obligations.NameAndSelectorAreInverse : Prop :=
  (∀ name : Word, name ≤ 0x1B → ∃ k, selectorOfName name = some k ∧ nameOfSelector k = some name) ∧
  (∀ (k : Selector) (name : Word), nameOfSelector k = some name → selectorOfName name = some k) ∧
  (∀ k : Selector, (∃ r ∈ sectorTable, r.selector = k) ↔ ∃ name, nameOfSelector k = some name)

/-! The commands' accepting steps -/

/-- R100: RESOLVE answers in its accepting step and writes no state but the history. -/
def Obligations.ResolveCommandAnswers : Prop :=
  ∀ (s : State) (a : Word), s.seq = .idle →
    exec (.resolve a) s =
      .next { s with history := s.history ++ [.cmd (.resolve a), .rsp (.info (resolve s.hw a))] }

/-- R130, R131, R132: NAME2NUM of a name up to 0x1B answers its number and writes no state but the history; above it the halt `NAME_RANGE`, no response. -/
def Obligations.Name2numAnswersOrHalts : Prop :=
  ∀ (s : State) (name : Word), s.seq = .idle →
    exec (.name2num name) s =
      if name ≤ 0x1B then
        .next { s with
          history := s.history ++ [.cmd (.name2num name),
            .rsp (.number (if name ≤ 0xB then name else if name ≤ 0x17 then name + 4 else name - 0xC))] }
      else
        .next { s with
          seq := .halted
          haltCause := some .nameRange
          history := s.history ++ [.cmd (.name2num name), .halt .nameRange] }

/-- R141 with the sector table's resolving ranges (30_encoding.md section 4) and the number that the event sequences of 42_erase_sequencer.md name, both of which the spec marks as its own inference: ERASE of an in-region address latches the number of the sector that holds it and enters the chain, whatever `B1S_BASE` is; of an address outside the region it halts with `ERASE_BAD_ADDR`, nothing sent to the controller. -/
def Obligations.EraseAcceptanceLatchesOrHalts : Prop :=
  ∀ (s : State) (a : Word), s.seq = .idle →
    (s.hw.legal = true → inRegion s.hw a.toNat = true →
      ∃ r ∈ sectorTable, rowHolds s.hw a.toNat r = true ∧
        (resolve s.hw a).sectorNumber = ctlIdx r.selector ∧
        exec (.erase a) s =
          .next { s with
            seq := .erUnlock
            selR := some (ctlIdx r.selector)
            history := s.history ++ [.cmd (.erase a)] }) ∧
    (inRegion s.hw a.toNat = false →
      exec (.erase a) s =
        .next { s with
          seq := .halted
          haltCause := some .eraseBadAddr
          history := s.history ++ [.cmd (.erase a), .halt .eraseBadAddr] })

/-- R151: WRITE loads its latches and enters the chain, whatever its address and length. -/
def Obligations.WriteLoadsItsLatches : Prop :=
  ∀ (s : State) (a : Word) (n : Half) (d : List Byte), s.seq = .idle → n.toNat ≤ d.length →
    exec (.write a n d) s =
      .next { s with
        seq := .wrUnlock
        cur := some a
        lenR := some n
        idx := some 0
        dbuf := some (d.take n.toNat)
        history := s.history ++ [.cmd (.write a n d)] }

/-- R161: READ loads its latches and enters the loop; of length 0 it answers at once with no byte and stays in `IDLE`, nothing read. -/
def Obligations.ReadAcceptanceLoadsOrAnswers : Prop :=
  ∀ (s : State) (a : Word) (n : Half), s.seq = .idle →
    (n ≠ 0 → exec (.read a n) s =
      .next { s with
        seq := .rdByte
        cur := some a
        lenR := some n
        idx := some 0
        obuf := some []
        history := s.history ++ [.cmd (.read a n)] }) ∧
    (n = 0 → ∃ t, exec (.read a n) s = .next t ∧ t.seq = .idle ∧ t.haltCause = s.haltCause ∧
      t.history = s.history ++ [.cmd (.read a n), .rsp (.bytes [])] ∧
      t.hw = s.hw ∧ t.ctlUnlocked = s.ctlUnlocked ∧ t.ctlFlags = s.ctlFlags ∧ t.flash = s.flash ∧
      t.ctlReplies = s.ctlReplies ∧ t.memReplies = s.memReplies)

/-- R28, R33, R56: no accepting step touches the controller, the flash, the inputs or the parameters; RESOLVE and NAME2NUM leave every latch; ERASE writes `sel_r` alone. -/
def Obligations.AcceptingStepFrame : Prop :=
  ∀ (i : Instr) (s t : State), exec i s = .next t →
    t.hw = s.hw ∧ t.ctlUnlocked = s.ctlUnlocked ∧ t.ctlFlags = s.ctlFlags ∧
    (∀ x : Nat, readCell t.flash x = readCell s.flash x) ∧
    t.offers = s.offers ∧ t.ctlReplies = s.ctlReplies ∧ t.memReplies = s.memReplies ∧
    t.resetReq = s.resetReq ∧ t.draws = s.draws ∧
    match i with
    | .resolve _ => t.seq = s.seq ∧ t.haltCause = s.haltCause ∧ t.cur = s.cur ∧ t.lenR = s.lenR ∧
        t.idx = s.idx ∧ t.selR = s.selR ∧ t.dbuf = s.dbuf ∧ t.obuf = s.obuf
    | .name2num _ => t.cur = s.cur ∧ t.lenR = s.lenR ∧
        t.idx = s.idx ∧ t.selR = s.selR ∧ t.dbuf = s.dbuf ∧ t.obuf = s.obuf
    | .erase _ => t.cur = s.cur ∧ t.lenR = s.lenR ∧ t.idx = s.idx ∧ t.dbuf = s.dbuf ∧ t.obuf = s.obuf
    | .write _ _ _ => t.haltCause = s.haltCause ∧ t.selR = s.selR ∧ t.obuf = s.obuf
    | .read _ n => t.haltCause = s.haltCause ∧ (n ≠ 0 → t.selR = s.selR ∧ t.dbuf = s.dbuf)

/-! The chains, one step at a time -/

/-- R142, R152: an unlock, answered or not. -/
def Obligations.UnlockStepOpensTheBracket : Prop :=
  ∀ s : State, Enabled s → (s.seq = .erUnlock ∨ s.seq = .wrUnlock) →
    step s =
      match s.ctlReplies with
      | [] => .next s
      | _ :: rest =>
        .next { s with
          seq := if s.seq = .erUnlock then .erClear else .wrClear
          ctlUnlocked := true
          ctlReplies := rest
          history := s.history ++ [.unlock] }

/-- R143, R153: an answered flag clear: all five flags are clear, and WRITE goes on to its bytes or, without any, to the lock. -/
def Obligations.ClearStepClearsTheFiveFlags : Prop :=
  ∀ (s : State) (r : CtlReply) (rest : List CtlReply), Enabled s → s.ctlReplies = r :: rest →
    (s.seq = .erClear → step s =
      .next { s with
        seq := .erErase
        ctlFlags := ⟨false, false, false, false, false⟩
        ctlReplies := rest
        history := s.history ++ [.clearFlags ⟨true, true, true, true, true⟩] }) ∧
    (∀ n : Half, s.seq = .wrClear → s.lenR = some n → step s =
      .next { s with
        seq := if n = 0 then .wrLock else .wrProg
        ctlFlags := ⟨false, false, false, false, false⟩
        ctlReplies := rest
        history := s.history ++ [.clearFlags ⟨true, true, true, true, true⟩] })

/-- R144: an answered erase: one `Erase` event with the latched number; `Ready` goes to the lock, anything else halts, no lock issued. -/
def Obligations.EraseStepTestsTheStatus : Prop :=
  ∀ (s : State) (n : Word) (r : CtlReply) (rest : List CtlReply),
    Enabled s → s.seq = .erErase → s.selR = some n → s.ctlReplies = r :: rest →
    ∃ t, step s = .next t ∧
      (replyStatus r s = .ready →
        t.seq = .erLock ∧ t.haltCause = s.haltCause ∧ t.history = s.history ++ [.erase n .ready]) ∧
      (replyStatus r s ≠ .ready →
        t.seq = .halted ∧ t.haltCause = some .eraseFail ∧
          t.history = s.history ++ [.erase n (replyStatus r s), .halt .eraseFail]) ∧
      t.hw = s.hw ∧ t.cur = s.cur ∧ t.lenR = s.lenR ∧ t.idx = s.idx ∧ t.selR = s.selR ∧ t.dbuf = s.dbuf ∧
      t.obuf = s.obuf ∧ t.ctlUnlocked = s.ctlUnlocked ∧ t.ctlReplies = rest ∧
      t.memReplies = s.memReplies ∧ t.offers = s.offers ∧ t.resetReq = none

/-- R154: an answered byte program: one `Program` event; `Ready` advances `cur` and `idx`, anything else halts with both left at the failing byte. -/
def Obligations.ProgramStepTestsTheStatus : Prop :=
  ∀ (s : State) (a : Word) (n i : Half) (d : List Byte) (v : Byte) (r : CtlReply) (rest : List CtlReply),
    Enabled s → s.seq = .wrProg → s.cur = some a → s.lenR = some n → s.idx = some i → s.dbuf = some d →
    i.toNat < n.toNat → d[i.toNat]? = some v → s.ctlReplies = r :: rest →
    ∃ t, step s = .next t ∧
      (replyStatus r s = .ready →
        t.cur = some (a + 1) ∧ t.idx = some (i + 1) ∧
          t.seq = (if i.toNat + 1 < n.toNat then .wrProg else .wrLock) ∧
          t.haltCause = s.haltCause ∧ t.history = s.history ++ [.program a v .ready]) ∧
      (replyStatus r s ≠ .ready →
        t.cur = some a ∧ t.idx = some i ∧ t.seq = .halted ∧ t.haltCause = some .programFail ∧
          t.history = s.history ++ [.program a v (replyStatus r s), .halt .programFail]) ∧
      t.hw = s.hw ∧ t.lenR = s.lenR ∧ t.selR = s.selR ∧ t.dbuf = s.dbuf ∧ t.obuf = s.obuf ∧
      t.ctlUnlocked = s.ctlUnlocked ∧ t.ctlReplies = rest ∧ t.memReplies = s.memReplies ∧
      t.offers = s.offers ∧ t.resetReq = none

/-- R145, R155: an answered lock: the bracket closed, then the response without payload, then `IDLE`. -/
def Obligations.LockStepEndsTheCommand : Prop :=
  ∀ (s : State) (r : CtlReply) (rest : List CtlReply), Enabled s → s.ctlReplies = r :: rest →
    (s.seq = .erLock ∨ s.seq = .wrLock) →
    ∃ t, step s = .next t ∧ t.seq = .idle ∧ t.haltCause = s.haltCause ∧ t.ctlUnlocked = false ∧
      t.history = s.history ++ [.lock, .rsp .none] ∧ t.ctlReplies = rest ∧ t.hw = s.hw ∧
      t.ctlFlags = s.ctlFlags ∧ t.flash = s.flash ∧ t.offers = s.offers ∧ t.memReplies = s.memReplies ∧
      t.resetReq = none

/-- R162: an answered byte read: one `MemRd` event, the byte appended; bytes remaining the loop goes on, else the response carries all of them; the controller and the flash are untouched. -/
def Obligations.ReadStepAppendsTheByte : Prop :=
  ∀ (s : State) (a : Word) (n i : Half) (o : List Byte) (r : MemReply) (rest : List MemReply),
    Enabled s → s.seq = .rdByte → s.cur = some a → s.lenR = some n → s.idx = some i → s.obuf = some o →
    i.toNat < n.toNat → s.memReplies = r :: rest →
    ∃ (t : State) (b : Byte), step s = .next t ∧ MayRead s a r b ∧
      (i.toNat + 1 < n.toNat →
        t.seq = .rdByte ∧ t.cur = some (a + 1) ∧ t.lenR = some n ∧ t.idx = some (i + 1) ∧
          t.obuf = some (o ++ [b]) ∧ t.selR = s.selR ∧ t.dbuf = s.dbuf ∧
          t.history = s.history ++ [.memRd a b]) ∧
      (¬ i.toNat + 1 < n.toNat →
        t.seq = .idle ∧ t.history = s.history ++ [.memRd a b, .rsp (.bytes (o ++ [b]))]) ∧
      t.hw = s.hw ∧ t.haltCause = s.haltCause ∧ t.ctlUnlocked = s.ctlUnlocked ∧ t.ctlFlags = s.ctlFlags ∧
      t.ctlReplies = s.ctlReplies ∧ t.memReplies = rest ∧ t.offers = s.offers ∧ t.resetReq = none ∧
      t.flash = s.flash

/-- R181: while a call or a read is not answered, the block waits for ever: no number of steps changes anything, it is not halted, and no command is accepted. -/
def Obligations.UnansweredCallWaits : Prop :=
  ∀ s : State, Enabled s → Waiting s →
    (∀ k : Nat, runSteps k s = .next s) ∧ isHalted s = false ∧ ∀ i : Instr, exec i s = .refused .channelNotReady ∨ i.wf = false

/-! Whole commands -/

/-- The rule R140 with case (3) of R146, which the spec marks as its own inference: the run of an ERASE every call of which is answered, the erase with `Ready`. That only bytes of the sector change is the model's (log entry 15), and that the latches hold no value after the command is R25's inference. -/
def Obligations.EraseRunSucceeds : Prop :=
  ∀ (s : State) (a : Word) (offers : List (List Byte)) (r1 r2 r3 r4 : CtlReply) (rest : List CtlReply),
    Enabled s → s.seq = .idle → inRegion s.hw a.toNat = true →
    s.offers = encode (.erase a) :: offers → s.ctlReplies = r1 :: r2 :: r3 :: r4 :: rest → AnswersReady r3 →
    ∃ (t : State) (r : SectorRow), r ∈ sectorTable ∧ rowHolds s.hw a.toNat r = true ∧
      runSteps 5 s = .next t ∧ t.seq = .idle ∧ LatchesEmpty t ∧ t.ctlUnlocked = false ∧
      t.offers = offers ∧ t.ctlReplies = rest ∧
      t.history = s.history ++ [.cmd (.erase a), .unlock, .clearFlags flagMask,
        .erase (ctlIdx r.selector) .ready, .lock, .rsp .none] ∧
      (∀ x : Nat, rowHolds s.hw x r = false → readCell t.flash x = readCell s.flash x) ∧
      (r3 = .reference → ∀ x : Nat, rowHolds s.hw x r = true → readCell t.flash x = 0xFF)

/-- The rule R140 with case (2) of R146, which the spec marks as its own inference, R171 and R199: the run of an ERASE whose erase is answered with a status other than `Ready`: halted, unlocked, no lock, no response. -/
def Obligations.EraseRunFails : Prop :=
  ∀ (s : State) (a : Word) (offers : List (List Byte)) (st : Status) (r1 r2 r3 : CtlReply) (rest : List CtlReply),
    Enabled s → s.seq = .idle → inRegion s.hw a.toNat = true →
    s.offers = encode (.erase a) :: offers → s.ctlReplies = r1 :: r2 :: r3 :: rest → AnswersNonReady st r3 →
    ∃ (t : State) (r : SectorRow), r ∈ sectorTable ∧ rowHolds s.hw a.toNat r = true ∧
      runSteps 4 s = .next t ∧ t.seq = .halted ∧ t.haltCause = some .eraseFail ∧ t.ctlUnlocked = true ∧
      t.selR = some (ctlIdx r.selector) ∧
      t.history = s.history ++ [.cmd (.erase a), .unlock, .clearFlags flagMask,
        .erase (ctlIdx r.selector) st, .halt .eraseFail]

/-- R157: WRITE of length 0: the bracket runs and the flags are cleared, no byte is programmed, whatever the address. -/
def Obligations.WriteOfLengthZeroRunsTheBracket : Prop :=
  ∀ (s : State) (a : Word) (d : List Byte) (offers : List (List Byte)) (r1 r2 r3 : CtlReply)
    (rest : List CtlReply),
    Enabled s → s.seq = .idle → s.offers = encode (.write a 0 d) :: offers →
    s.ctlReplies = r1 :: r2 :: r3 :: rest →
    ∃ t : State, runSteps 4 s = .next t ∧ t.seq = .idle ∧
      t.history = s.history ++ [.cmd (.write a 0 d), .unlock, .clearFlags flagMask, .lock, .rsp .none] ∧
      t.ctlFlags = ⟨false, false, false, false, false⟩ ∧ t.ctlUnlocked = false ∧ t.flash = s.flash

/-- The rule R150 with case (1) of R158, which the spec marks as its own inference: the run of a WRITE every call of which is answered, the programs with `Ready`; addresses modulo 2^32; a byte of the region whose call the reference controller answers becomes old AND new (R67). That only bytes of the range change is the model's (log entry 15), and that the latches hold no value after the command is R25's inference. -/
def Obligations.WriteRunSucceeds : Prop :=
  ∀ (s : State) (a : Word) (n : Half) (d : List Byte) (offers : List (List Byte))
    (r1 r2 r4 : CtlReply) (programs rest : List CtlReply),
    Enabled s → s.seq = .idle → n.toNat ≤ d.length → s.offers = encode (.write a n d) :: offers →
    s.ctlReplies = r1 :: r2 :: (programs ++ r4 :: rest) → programs.length = n.toNat →
    (∀ r ∈ programs, AnswersReady r) →
    ∃ t : State, runSteps (n.toNat + 4) s = .next t ∧ t.seq = .idle ∧ LatchesEmpty t ∧
      t.ctlUnlocked = false ∧ t.offers = offers ∧ t.ctlReplies = rest ∧
      t.history = s.history ++ [.cmd (.write a n d), .unlock, .clearFlags flagMask] ++
        programEvents a (d.take n.toNat) ++ [.lock, .rsp .none] ∧
      (∀ x : Nat, (∀ k < n.toNat, x ≠ (a + BitVec.ofNat 32 k).toNat) → readCell t.flash x = readCell s.flash x) ∧
      ∀ (k : Nat) (v : Byte), programs[k]? = some .reference → d[k]? = some v →
        inRegion s.hw (a + BitVec.ofNat 32 k).toNat = true →
        readCell t.flash (a + BitVec.ofNat 32 k).toNat = readCell s.flash (a + BitVec.ofNat 32 k).toNat &&& v

/-- The rule R150 with case (2) of R158, which the spec marks as its own inference, R156 and R173: the run of a WRITE whose program of byte `i` is the first answered with a status other than `Ready`; the bytes before it that the reference controller answered stay programmed (R67). That no byte outside the calls sent changes is the model's (log entry 15). -/
def Obligations.WriteRunFailsAtAByte : Prop :=
  ∀ (s : State) (a : Word) (n : Half) (d : List Byte) (v : Byte) (offers : List (List Byte)) (st : Status)
    (r1 r2 r : CtlReply) (programs rest : List CtlReply),
    Enabled s → s.seq = .idle → n.toNat ≤ d.length → s.offers = encode (.write a n d) :: offers →
    s.ctlReplies = r1 :: r2 :: (programs ++ r :: rest) → programs.length < n.toNat →
    (∀ r ∈ programs, AnswersReady r) → AnswersNonReady st r → d[programs.length]? = some v →
    ∃ t : State, runSteps (programs.length + 4) s = .next t ∧ t.seq = .halted ∧
      t.haltCause = some .programFail ∧ t.ctlUnlocked = true ∧
      t.cur = some (a + BitVec.ofNat 32 programs.length) ∧ t.idx = some (BitVec.ofNat 16 programs.length) ∧
      t.lenR = some n ∧ t.dbuf = some (d.take n.toNat) ∧
      t.history = s.history ++ [.cmd (.write a n d), .unlock, .clearFlags flagMask] ++
        programEvents a (d.take programs.length) ++
        [.program (a + BitVec.ofNat 32 programs.length) v st, .halt .programFail] ∧
      (∀ x : Nat, (∀ k ≤ programs.length, x ≠ (a + BitVec.ofNat 32 k).toNat) →
        readCell t.flash x = readCell s.flash x) ∧
      ∀ (k : Nat) (w : Byte), programs[k]? = some .reference → d[k]? = some w →
        inRegion s.hw (a + BitVec.ofNat 32 k).toNat = true →
        readCell t.flash (a + BitVec.ofNat 32 k).toNat = readCell s.flash (a + BitVec.ofNat 32 k).toNat &&& w

/-- R160: the run of a READ every read of which is answered: one `MemRd` event a byte, in address order, then the response with all of them; the controller and the flash untouched, never halted, whatever the addresses. -/
def Obligations.ReadRunAnswersTheBytes : Prop :=
  ∀ (s : State) (a : Word) (n : Half) (offers : List (List Byte)) (reads rest : List MemReply),
    Enabled s → s.seq = .idle → s.offers = encode (.read a n) :: offers →
    s.memReplies = reads ++ rest → reads.length = n.toNat →
    ∃ (t : State) (out : List Byte), runSteps (n.toNat + 1) s = .next t ∧ MayReadAll s a reads out ∧
      t.seq = .idle ∧ t.haltCause = s.haltCause ∧
      t.history = s.history ++ .cmd (.read a n) :: (readEvents a out ++ [.rsp (.bytes out)]) ∧
      t.ctlUnlocked = s.ctlUnlocked ∧ t.ctlFlags = s.ctlFlags ∧ t.ctlReplies = s.ctlReplies ∧
      t.flash = s.flash ∧ t.offers = offers ∧ t.memReplies = rest

/-! The fatal halt and reset -/

/-- R175: `halt(cause)` has its three effects and no other; a step that enters `HALTED` records the cause, appends `Halt(cause)` as its last event, leaves every latch and the lock state, and responds nothing; and from `HALTED`, a failed end and no normal one, there is no step. -/
def Obligations.HaltEntryRecordsTheCauseOnly : Prop :=
  (∀ (cause : HaltCause) (s : State), takeHalt cause s =
    { s with haltCause := some cause, seq := .halted, history := s.history ++ [.halt cause] }) ∧
  (∀ s t : State, s.seq ≠ .halted → step s = .next t → t.seq = .halted →
    ∃ cause events, t.haltCause = some cause ∧ t.history = s.history ++ events ++ [.halt cause] ∧
      (∀ p, Event.rsp p ∉ events) ∧ Event.lock ∉ events ∧
      t.cur = s.cur ∧ t.lenR = s.lenR ∧ t.idx = s.idx ∧ t.selR = s.selR ∧ t.dbuf = s.dbuf ∧ t.obuf = s.obuf ∧
      t.ctlUnlocked = s.ctlUnlocked ∧ t.memReplies = s.memReplies) ∧
  (∀ s : State, Enabled s → FailedEnd s → ¬ EndedNormally s ∧ step s = .fault (.halted s.haltCause))

/-- R171: which command and which step raise which cause and exactly when, the codes, and whether the bracket is open at the halt. -/
def Obligations.EachHaltCauseHasItsCondition : Prop :=
  (haltCode .nameRange = 0 ∧ haltCode .eraseBadAddr = 1 ∧ haltCode .eraseFail = 2 ∧ haltCode .programFail = 3) ∧
  (∀ (i : Instr) (s t : State), s.hw.legal = true → exec i s = .next t →
    (t.seq = .halted ∧ t.haltCause = some .nameRange ↔ ∃ name, i = .name2num name ∧ 0x1B < name) ∧
    (t.seq = .halted ∧ t.haltCause = some .eraseBadAddr ↔ ∃ a, i = .erase a ∧ inRegion s.hw a.toNat = false) ∧
    (t.seq = .halted → t.haltCause = some .nameRange ∨ t.haltCause = some .eraseBadAddr)) ∧
  (∀ s t : State, Enabled s → s.seq ≠ .idle → step s = .next t →
    (t.seq = .halted ∧ t.haltCause = some .eraseFail ↔
      s.seq = .erErase ∧ ∃ r rest, s.ctlReplies = r :: rest ∧ replyStatus r s ≠ .ready) ∧
    (t.seq = .halted ∧ t.haltCause = some .programFail ↔
      s.seq = .wrProg ∧ ∃ r rest, s.ctlReplies = r :: rest ∧ replyStatus r s ≠ .ready) ∧
    (t.seq = .halted → t.haltCause = some .eraseFail ∨ t.haltCause = some .programFail)) ∧
  (∀ s : State, s.seq = .halted →
    (bracketOpen s.seq s.haltCause = true ↔
      s.haltCause = some .eraseFail ∨ s.haltCause = some .programFail))

/-- R176: nothing but a reset of the block leaves `HALTED`; while halted no command is run. -/
def Obligations.OnlyResetLeavesHalted : Prop :=
  ∀ s : State, s.seq = .halted →
    (∀ i : Instr, ∃ why, exec i s = .refused why) ∧
    (∀ t, step s = .next t → ∃ found, s.resetReq = some found ∧ t.seq = .idle ∧ t.haltCause = none) ∧
    (∀ found, s.hw.legal = true → s.resetReq = some found → ∃ t, step s = .next t)

/-- R190; that the history is kept over a reset is the model's reading, DEDUCED (log entry 8): a reset, in any state, leaves the block idle, not halted, and no latch with a value; the parameters and the history are the same; and the machine after reset is such a state. -/
def Obligations.ResetLeavesTheBlockIdle : Prop :=
  (∀ (s : State) (found : Abandoned), s.hw.legal = true → s.resetReq = some found →
    ∃ t, step s = .next t ∧ t.seq = .idle ∧ isHalted t = false ∧ t.haltCause = none ∧ LatchesEmpty t ∧
      t.hw = s.hw ∧ t.history = s.history ∧ t.resetReq = none) ∧
  (∀ s t : State, s.seq = .halted → step s = .next t → s.resetReq ≠ none) ∧
  (State.reset.seq = .idle ∧ isHalted State.reset = false ∧ State.reset.haltCause = none ∧
    LatchesEmpty State.reset)

/-- R192 and U20 (the flags, and a READ in progress: log entry 16; when the call in flight lands: log entry 21): a reset changes neither the lock state, nor a flag, nor a flash byte where no ERASE or WRITE was in progress; in the middle of one it leaves any lock state, the reset's own datum, and it changes no flag where the call in flight is an unlock or a lock. -/
def Obligations.ResetLeavesTheController : Prop :=
  ∀ (s t : State) (found : Abandoned), s.resetReq = some found → step s = .next t →
    ((s.seq = .idle ∨ s.seq = .halted ∨ s.seq = .rdByte) →
      t.ctlUnlocked = s.ctlUnlocked ∧ t.ctlFlags = s.ctlFlags ∧ t.flash = s.flash) ∧
    (callInFlight s.seq = true → t.ctlUnlocked = found.unlocked) ∧
    ((s.seq = .erUnlock ∨ s.seq = .erLock ∨ s.seq = .wrUnlock ∨ s.seq = .wrLock) → t.ctlFlags = s.ctlFlags)

/-- R193 (which bytes are the command's: log entry 16): a reset in mid-command changes no flash byte outside the abandoned command's range: of an ERASE the sector whose number `sel_r` holds, of a WRITE the `len_r` addresses from the first one on, which is `cur - idx`, modulo 2^32. -/
def Obligations.ResetKeepsBytesOutsideTheCommand : Prop :=
  ∀ (s t : State) (found : Abandoned), s.resetReq = some found → step s = .next t →
    (∀ n : Word, EraseInProgress s.seq → s.selR = some n → ∀ x : Nat,
      (∀ r ∈ sectorTable, n = ctlIdx r.selector → rowHolds s.hw x r = false) →
      readCell t.flash x = readCell s.flash x) ∧
    (∀ (a : Word) (n i : Half), WriteInProgress s.seq → s.cur = some a → s.lenR = some n → s.idx = some i → ∀ x : Nat,
      (∀ k < n.toNat, x ≠ (a - i.setWidth 32 + BitVec.ofNat 32 k).toNat) →
      readCell t.flash x = readCell s.flash x)

/-- R193 and U20 (which bytes are the command's: log entry 16; that they are as the reset leaves them: log entry 21): a reset in mid-command may leave any lock state together with any bytes in the abandoned command's range, inside the region. -/
def Obligations.ResetMayLeaveAnyBytesInTheCommand : Prop :=
  ∀ (s : State) (unlocked : Bool) (contents : Nat → Byte), s.hw.legal = true →
    (∀ r ∈ sectorTable, EraseInProgress s.seq → s.selR = some (ctlIdx r.selector) →
      ∃ (found : Abandoned) (t : State), step { s with resetReq := some found } = .next t ∧ t.ctlUnlocked = unlocked ∧
        ∀ x : Nat, rowHolds s.hw x r = true → readCell t.flash x = contents x) ∧
    (∀ (a : Word) (n i : Half), WriteInProgress s.seq → s.cur = some a → s.lenR = some n → s.idx = some i →
      ∃ (found : Abandoned) (t : State), step { s with resetReq := some found } = .next t ∧ t.ctlUnlocked = unlocked ∧
        ∀ k < n.toNat, ∀ x : Nat, x = (a - i.setWidth 32 + BitVec.ofNat 32 k).toNat → inRegion s.hw x = true →
          readCell t.flash x = contents x)

/-! Invariants and whole-machine rules -/

/-- R23, R25 (both the spec's own inference), R24, R26 and R173: which latches hold a value in each state of the sequencer, kept by every step, a reset included. -/
def Obligations.LatchInvariantIsKept : Prop :=
  ∀ s t : State, LatchInv s → step s = .next t → LatchInv t

/-- R32: the bracket discipline, kept by every step but a reset: idle means every unlock is matched; a halt of an erase or a program leaves exactly one unmatched. -/
def Obligations.BracketInvariantIsKept : Prop :=
  ∀ s t : State, BracketInv s → s.resetReq = none → step s = .next t → BracketInv t

/-- R10; the canonical form is the model's (log entry 7): the flash contents stay in their canonical form and the configuration stays legal. -/
def Obligations.MemoryInvariantIsKept : Prop :=
  ∀ s t : State, MemoryInv s → step s = .next t → MemoryInv t

/-- R80, U4: no `Erase` event ever carries a number that is not one of the 28 sectors'. -/
def Obligations.EraseEventsNameRealSectors : Prop :=
  ∀ s t : State, LatchInv s → EraseEventsInv s → step s = .next t → EraseEventsInv t

/-- The invariants hold of the machine after reset. -/
def Obligations.InvariantsHoldAtReset : Prop :=
  LatchInv State.reset ∧ BracketInv State.reset ∧ MemoryInv State.reset ∧ EraseEventsInv State.reset

/-- R27, R34: no step writes a hard-wired parameter, and the history only grows. -/
def Obligations.HistoryGrowsParametersStay : Prop :=
  ∀ s t : State, step s = .next t → t.hw = s.hw ∧ ∃ events, t.history = s.history ++ events

/-- R23, which the spec marks as its own inference: every move of the sequencer's state register that is not a wait or a reset. -/
def Obligations.SequencerMovesAsListed : Prop :=
  (∀ s t : State, s.resetReq = none → step s = .next t → t = s ∨ SeqMove s.seq t.seq) ∧
  (∀ (i : Instr) (s t : State), exec i s = .next t →
    match i with
    | .resolve _ => t.seq = .idle
    | .name2num _ => t.seq = .idle ∨ t.seq = .halted
    | .erase _ => t.seq = .erUnlock ∨ t.seq = .halted
    | .write _ _ _ => t.seq = .wrUnlock
    | .read _ n => t.seq = if n = 0 then .idle else .rdByte)

/-- R33, R56, R57 (the bytes a call may change: log entry 15): a flash byte changes only by the answered erase of its sector or the answered program of its address, and the lock state only by an answered unlock or lock; and an answered erase or program leaves the flash and the flags as its call leaves them. -/
def Obligations.FlashChangesOnlyByItsCalls : Prop :=
  ∀ s t : State, s.resetReq = none → step s = .next t →
    (∀ x : Nat, readCell t.flash x ≠ readCell s.flash x →
      (s.seq = .erErase ∧ inSector s.hw (selVal s) x = true) ∨ (s.seq = .wrProg ∧ x = (curVal s).toNat)) ∧
    (t.ctlUnlocked ≠ s.ctlUnlocked → lockCallInFlight s.seq = true) ∧
    (∀ (n : Word) (r : CtlReply) (rest : List CtlReply), s.seq = .erErase → s.selR = some n →
      s.ctlReplies = r :: rest → t.flash = (ctlErase n r s).flash ∧ t.ctlFlags = (ctlErase n r s).ctlFlags) ∧
    (∀ (a : Word) (i : Half) (d : List Byte) (v : Byte) (r : CtlReply) (rest : List CtlReply),
      s.seq = .wrProg → s.cur = some a → s.idx = some i → s.dbuf = some d → d[i.toNat]? = some v →
      s.ctlReplies = r :: rest → t.flash = (ctlProgram a v r s).flash ∧ t.ctlFlags = (ctlProgram a v r s).ctlFlags)

/-- R66 (the status of a locked controller: log entry 13), U2 and U3 (the bytes a call may change: log entry 15): the reference controller: what its answers say and when, and that the lock state follows the unlock and lock events; and a scripted answer may leave any byte of the call's target. -/
def Obligations.ReferenceControllerAnswers : Prop :=
  ∀ s : State,
    (replyStatus .reference s = .ready ↔ s.ctlUnlocked = true) ∧
    (∀ st flags cells, replyStatus (.scripted st flags cells) s = st) ∧
    State.reset.ctlUnlocked = false ∧ (ctlUnlock s).ctlUnlocked = true ∧ (ctlLock s).ctlUnlocked = false ∧
    (∀ (n : Word) (st : Status) (flags : CtlFlags),
      (ctlErase n (.scripted st flags []) s).flash = s.flash) ∧
    (∀ (a : Word) (v : Byte) (st : Status) (flags : CtlFlags),
      (ctlProgram a v (.scripted st flags []) s).flash = s.flash) ∧
    (∀ (a : Word) (v b : Byte) (st : Status) (flags : CtlFlags), inRegion s.hw a.toNat = true →
      readCell (ctlProgram a v (.scripted st flags [(a.toNat, b)]) s).flash a.toNat = b) ∧
    (∀ r ∈ sectorTable, ∀ (x : Nat) (b : Byte) (st : Status) (flags : CtlFlags), s.hw.legal = true →
      rowHolds s.hw x r = true →
      readCell (ctlErase (ctlIdx r.selector) (.scripted st flags [(x, b)]) s).flash x = b) ∧
    (s.ctlUnlocked = false → ∀ (n a : Word) (v : Byte),
      (ctlErase n .reference s).flash = s.flash ∧ (ctlProgram a v .reference s).flash = s.flash)

/-- R67: the reference contents: an erase sets its sector to 0xFF, a program of an address of the region makes its byte old AND new, a read gives the contents. -/
def Obligations.ReferenceContentsOfOperations : Prop :=
  ∀ s : State, s.ctlUnlocked = true →
    (∀ (n : Word) (r : SectorRow), r ∈ sectorTable → n = ctlIdx r.selector → ∀ x : Nat,
      readCell (ctlErase n .reference s).flash x = if rowHolds s.hw x r then 0xFF else readCell s.flash x) ∧
    (∀ (a : Word) (v : Byte), inRegion s.hw a.toNat = true → ∀ x : Nat,
      readCell (ctlProgram a v .reference s).flash x =
        if x = a.toNat then readCell s.flash x &&& v else readCell s.flash x) ∧
    (∀ a : Word, inRegion s.hw a.toNat = true → readValue a .contents s = readCell s.flash a.toNat)
end

