-- ==== Sys2Proof/Laws/State.lean ====
section
/-! SUPPORT. Each field after each named update of the state, by rfl, so that no later proof unfolds a record update. -/

namespace Sys2Proof.Machine

@[simp] theorem emit_hw (e : Event) (s : State) : (emit e s).hw = s.hw := rfl
@[simp] theorem emit_seq (e : Event) (s : State) : (emit e s).seq = s.seq := rfl
@[simp] theorem emit_haltCause (e : Event) (s : State) : (emit e s).haltCause = s.haltCause := rfl
@[simp] theorem emit_cur (e : Event) (s : State) : (emit e s).cur = s.cur := rfl
@[simp] theorem emit_lenR (e : Event) (s : State) : (emit e s).lenR = s.lenR := rfl
@[simp] theorem emit_idx (e : Event) (s : State) : (emit e s).idx = s.idx := rfl
@[simp] theorem emit_selR (e : Event) (s : State) : (emit e s).selR = s.selR := rfl
@[simp] theorem emit_dbuf (e : Event) (s : State) : (emit e s).dbuf = s.dbuf := rfl
@[simp] theorem emit_obuf (e : Event) (s : State) : (emit e s).obuf = s.obuf := rfl
@[simp] theorem emit_history (e : Event) (s : State) : (emit e s).history = s.history ++ [e] := rfl
@[simp] theorem emit_ctlUnlocked (e : Event) (s : State) : (emit e s).ctlUnlocked = s.ctlUnlocked := rfl
@[simp] theorem emit_ctlFlags (e : Event) (s : State) : (emit e s).ctlFlags = s.ctlFlags := rfl
@[simp] theorem emit_flash (e : Event) (s : State) : (emit e s).flash = s.flash := rfl
@[simp] theorem emit_offers (e : Event) (s : State) : (emit e s).offers = s.offers := rfl
@[simp] theorem emit_ctlReplies (e : Event) (s : State) : (emit e s).ctlReplies = s.ctlReplies := rfl
@[simp] theorem emit_memReplies (e : Event) (s : State) : (emit e s).memReplies = s.memReplies := rfl
@[simp] theorem emit_resetReq (e : Event) (s : State) : (emit e s).resetReq = s.resetReq := rfl
@[simp] theorem emit_draws (e : Event) (s : State) : (emit e s).draws = s.draws := rfl

@[simp] theorem goto_hw (q : Seq) (s : State) : (goto q s).hw = s.hw := rfl
@[simp] theorem goto_seq (q : Seq) (s : State) : (goto q s).seq = q := rfl
@[simp] theorem goto_haltCause (q : Seq) (s : State) : (goto q s).haltCause = s.haltCause := rfl
@[simp] theorem goto_cur (q : Seq) (s : State) : (goto q s).cur = s.cur := rfl
@[simp] theorem goto_lenR (q : Seq) (s : State) : (goto q s).lenR = s.lenR := rfl
@[simp] theorem goto_idx (q : Seq) (s : State) : (goto q s).idx = s.idx := rfl
@[simp] theorem goto_selR (q : Seq) (s : State) : (goto q s).selR = s.selR := rfl
@[simp] theorem goto_dbuf (q : Seq) (s : State) : (goto q s).dbuf = s.dbuf := rfl
@[simp] theorem goto_obuf (q : Seq) (s : State) : (goto q s).obuf = s.obuf := rfl
@[simp] theorem goto_history (q : Seq) (s : State) : (goto q s).history = s.history := rfl
@[simp] theorem goto_ctlUnlocked (q : Seq) (s : State) : (goto q s).ctlUnlocked = s.ctlUnlocked := rfl
@[simp] theorem goto_ctlFlags (q : Seq) (s : State) : (goto q s).ctlFlags = s.ctlFlags := rfl
@[simp] theorem goto_flash (q : Seq) (s : State) : (goto q s).flash = s.flash := rfl
@[simp] theorem goto_offers (q : Seq) (s : State) : (goto q s).offers = s.offers := rfl
@[simp] theorem goto_ctlReplies (q : Seq) (s : State) : (goto q s).ctlReplies = s.ctlReplies := rfl
@[simp] theorem goto_memReplies (q : Seq) (s : State) : (goto q s).memReplies = s.memReplies := rfl
@[simp] theorem goto_resetReq (q : Seq) (s : State) : (goto q s).resetReq = s.resetReq := rfl
@[simp] theorem goto_draws (q : Seq) (s : State) : (goto q s).draws = s.draws := rfl

@[simp] theorem advance_hw (a : Word) (i : Half) (s : State) : (advance a i s).hw = s.hw := rfl
@[simp] theorem advance_seq (a : Word) (i : Half) (s : State) : (advance a i s).seq = s.seq := rfl
@[simp] theorem advance_haltCause (a : Word) (i : Half) (s : State) : (advance a i s).haltCause = s.haltCause := rfl
@[simp] theorem advance_cur (a : Word) (i : Half) (s : State) : (advance a i s).cur = some (a + 1) := rfl
@[simp] theorem advance_lenR (a : Word) (i : Half) (s : State) : (advance a i s).lenR = s.lenR := rfl
@[simp] theorem advance_idx (a : Word) (i : Half) (s : State) : (advance a i s).idx = some (i + 1) := rfl
@[simp] theorem advance_selR (a : Word) (i : Half) (s : State) : (advance a i s).selR = s.selR := rfl
@[simp] theorem advance_dbuf (a : Word) (i : Half) (s : State) : (advance a i s).dbuf = s.dbuf := rfl
@[simp] theorem advance_obuf (a : Word) (i : Half) (s : State) : (advance a i s).obuf = s.obuf := rfl
@[simp] theorem advance_history (a : Word) (i : Half) (s : State) : (advance a i s).history = s.history := rfl
@[simp] theorem advance_ctlUnlocked (a : Word) (i : Half) (s : State) : (advance a i s).ctlUnlocked = s.ctlUnlocked := rfl
@[simp] theorem advance_ctlFlags (a : Word) (i : Half) (s : State) : (advance a i s).ctlFlags = s.ctlFlags := rfl
@[simp] theorem advance_flash (a : Word) (i : Half) (s : State) : (advance a i s).flash = s.flash := rfl
@[simp] theorem advance_offers (a : Word) (i : Half) (s : State) : (advance a i s).offers = s.offers := rfl
@[simp] theorem advance_ctlReplies (a : Word) (i : Half) (s : State) : (advance a i s).ctlReplies = s.ctlReplies := rfl
@[simp] theorem advance_memReplies (a : Word) (i : Half) (s : State) : (advance a i s).memReplies = s.memReplies := rfl
@[simp] theorem advance_resetReq (a : Word) (i : Half) (s : State) : (advance a i s).resetReq = s.resetReq := rfl
@[simp] theorem advance_draws (a : Word) (i : Half) (s : State) : (advance a i s).draws = s.draws := rfl

@[simp] theorem setCtlReplies_hw (rest : List CtlReply) (s : State) : (setCtlReplies rest s).hw = s.hw := rfl
@[simp] theorem setCtlReplies_seq (rest : List CtlReply) (s : State) : (setCtlReplies rest s).seq = s.seq := rfl
@[simp] theorem setCtlReplies_haltCause (rest : List CtlReply) (s : State) : (setCtlReplies rest s).haltCause = s.haltCause := rfl
@[simp] theorem setCtlReplies_cur (rest : List CtlReply) (s : State) : (setCtlReplies rest s).cur = s.cur := rfl
@[simp] theorem setCtlReplies_lenR (rest : List CtlReply) (s : State) : (setCtlReplies rest s).lenR = s.lenR := rfl
@[simp] theorem setCtlReplies_idx (rest : List CtlReply) (s : State) : (setCtlReplies rest s).idx = s.idx := rfl
@[simp] theorem setCtlReplies_selR (rest : List CtlReply) (s : State) : (setCtlReplies rest s).selR = s.selR := rfl
@[simp] theorem setCtlReplies_dbuf (rest : List CtlReply) (s : State) : (setCtlReplies rest s).dbuf = s.dbuf := rfl
@[simp] theorem setCtlReplies_obuf (rest : List CtlReply) (s : State) : (setCtlReplies rest s).obuf = s.obuf := rfl
@[simp] theorem setCtlReplies_history (rest : List CtlReply) (s : State) : (setCtlReplies rest s).history = s.history := rfl
@[simp] theorem setCtlReplies_ctlUnlocked (rest : List CtlReply) (s : State) : (setCtlReplies rest s).ctlUnlocked = s.ctlUnlocked := rfl
@[simp] theorem setCtlReplies_ctlFlags (rest : List CtlReply) (s : State) : (setCtlReplies rest s).ctlFlags = s.ctlFlags := rfl
@[simp] theorem setCtlReplies_flash (rest : List CtlReply) (s : State) : (setCtlReplies rest s).flash = s.flash := rfl
@[simp] theorem setCtlReplies_offers (rest : List CtlReply) (s : State) : (setCtlReplies rest s).offers = s.offers := rfl
@[simp] theorem setCtlReplies_ctlReplies (rest : List CtlReply) (s : State) : (setCtlReplies rest s).ctlReplies = rest := rfl
@[simp] theorem setCtlReplies_memReplies (rest : List CtlReply) (s : State) : (setCtlReplies rest s).memReplies = s.memReplies := rfl
@[simp] theorem setCtlReplies_resetReq (rest : List CtlReply) (s : State) : (setCtlReplies rest s).resetReq = s.resetReq := rfl
@[simp] theorem setCtlReplies_draws (rest : List CtlReply) (s : State) : (setCtlReplies rest s).draws = s.draws := rfl

@[simp] theorem setMemReplies_hw (rest : List MemReply) (s : State) : (setMemReplies rest s).hw = s.hw := rfl
@[simp] theorem setMemReplies_seq (rest : List MemReply) (s : State) : (setMemReplies rest s).seq = s.seq := rfl
@[simp] theorem setMemReplies_haltCause (rest : List MemReply) (s : State) : (setMemReplies rest s).haltCause = s.haltCause := rfl
@[simp] theorem setMemReplies_cur (rest : List MemReply) (s : State) : (setMemReplies rest s).cur = s.cur := rfl
@[simp] theorem setMemReplies_lenR (rest : List MemReply) (s : State) : (setMemReplies rest s).lenR = s.lenR := rfl
@[simp] theorem setMemReplies_idx (rest : List MemReply) (s : State) : (setMemReplies rest s).idx = s.idx := rfl
@[simp] theorem setMemReplies_selR (rest : List MemReply) (s : State) : (setMemReplies rest s).selR = s.selR := rfl
@[simp] theorem setMemReplies_dbuf (rest : List MemReply) (s : State) : (setMemReplies rest s).dbuf = s.dbuf := rfl
@[simp] theorem setMemReplies_obuf (rest : List MemReply) (s : State) : (setMemReplies rest s).obuf = s.obuf := rfl
@[simp] theorem setMemReplies_history (rest : List MemReply) (s : State) : (setMemReplies rest s).history = s.history := rfl
@[simp] theorem setMemReplies_ctlUnlocked (rest : List MemReply) (s : State) : (setMemReplies rest s).ctlUnlocked = s.ctlUnlocked := rfl
@[simp] theorem setMemReplies_ctlFlags (rest : List MemReply) (s : State) : (setMemReplies rest s).ctlFlags = s.ctlFlags := rfl
@[simp] theorem setMemReplies_flash (rest : List MemReply) (s : State) : (setMemReplies rest s).flash = s.flash := rfl
@[simp] theorem setMemReplies_offers (rest : List MemReply) (s : State) : (setMemReplies rest s).offers = s.offers := rfl
@[simp] theorem setMemReplies_ctlReplies (rest : List MemReply) (s : State) : (setMemReplies rest s).ctlReplies = s.ctlReplies := rfl
@[simp] theorem setMemReplies_memReplies (rest : List MemReply) (s : State) : (setMemReplies rest s).memReplies = rest := rfl
@[simp] theorem setMemReplies_resetReq (rest : List MemReply) (s : State) : (setMemReplies rest s).resetReq = s.resetReq := rfl
@[simp] theorem setMemReplies_draws (rest : List MemReply) (s : State) : (setMemReplies rest s).draws = s.draws := rfl

@[simp] theorem clearLatches_hw (s : State) : (clearLatches s).hw = s.hw := rfl
@[simp] theorem clearLatches_seq (s : State) : (clearLatches s).seq = s.seq := rfl
@[simp] theorem clearLatches_haltCause (s : State) : (clearLatches s).haltCause = s.haltCause := rfl
@[simp] theorem clearLatches_cur (s : State) : (clearLatches s).cur = none := rfl
@[simp] theorem clearLatches_lenR (s : State) : (clearLatches s).lenR = none := rfl
@[simp] theorem clearLatches_idx (s : State) : (clearLatches s).idx = none := rfl
@[simp] theorem clearLatches_selR (s : State) : (clearLatches s).selR = none := rfl
@[simp] theorem clearLatches_dbuf (s : State) : (clearLatches s).dbuf = none := rfl
@[simp] theorem clearLatches_obuf (s : State) : (clearLatches s).obuf = none := rfl
@[simp] theorem clearLatches_history (s : State) : (clearLatches s).history = s.history := rfl
@[simp] theorem clearLatches_ctlUnlocked (s : State) : (clearLatches s).ctlUnlocked = s.ctlUnlocked := rfl
@[simp] theorem clearLatches_ctlFlags (s : State) : (clearLatches s).ctlFlags = s.ctlFlags := rfl
@[simp] theorem clearLatches_flash (s : State) : (clearLatches s).flash = s.flash := rfl
@[simp] theorem clearLatches_offers (s : State) : (clearLatches s).offers = s.offers := rfl
@[simp] theorem clearLatches_ctlReplies (s : State) : (clearLatches s).ctlReplies = s.ctlReplies := rfl
@[simp] theorem clearLatches_memReplies (s : State) : (clearLatches s).memReplies = s.memReplies := rfl
@[simp] theorem clearLatches_resetReq (s : State) : (clearLatches s).resetReq = s.resetReq := rfl
@[simp] theorem clearLatches_draws (s : State) : (clearLatches s).draws = s.draws := rfl

@[simp] theorem respond_hw (p : Payload) (s : State) : (respond p s).hw = s.hw := rfl
@[simp] theorem respond_seq (p : Payload) (s : State) : (respond p s).seq = .idle := rfl
@[simp] theorem respond_haltCause (p : Payload) (s : State) : (respond p s).haltCause = s.haltCause := rfl
@[simp] theorem respond_cur (p : Payload) (s : State) : (respond p s).cur = s.cur := rfl
@[simp] theorem respond_lenR (p : Payload) (s : State) : (respond p s).lenR = s.lenR := rfl
@[simp] theorem respond_idx (p : Payload) (s : State) : (respond p s).idx = s.idx := rfl
@[simp] theorem respond_selR (p : Payload) (s : State) : (respond p s).selR = s.selR := rfl
@[simp] theorem respond_dbuf (p : Payload) (s : State) : (respond p s).dbuf = s.dbuf := rfl
@[simp] theorem respond_obuf (p : Payload) (s : State) : (respond p s).obuf = s.obuf := rfl
@[simp] theorem respond_history (p : Payload) (s : State) : (respond p s).history = s.history ++ [.rsp p] := rfl
@[simp] theorem respond_ctlUnlocked (p : Payload) (s : State) : (respond p s).ctlUnlocked = s.ctlUnlocked := rfl
@[simp] theorem respond_ctlFlags (p : Payload) (s : State) : (respond p s).ctlFlags = s.ctlFlags := rfl
@[simp] theorem respond_flash (p : Payload) (s : State) : (respond p s).flash = s.flash := rfl
@[simp] theorem respond_offers (p : Payload) (s : State) : (respond p s).offers = s.offers := rfl
@[simp] theorem respond_ctlReplies (p : Payload) (s : State) : (respond p s).ctlReplies = s.ctlReplies := rfl
@[simp] theorem respond_memReplies (p : Payload) (s : State) : (respond p s).memReplies = s.memReplies := rfl
@[simp] theorem respond_resetReq (p : Payload) (s : State) : (respond p s).resetReq = s.resetReq := rfl
@[simp] theorem respond_draws (p : Payload) (s : State) : (respond p s).draws = s.draws := rfl

@[simp] theorem endCommand_hw (p : Payload) (s : State) : (endCommand p s).hw = s.hw := rfl
@[simp] theorem endCommand_seq (p : Payload) (s : State) : (endCommand p s).seq = .idle := rfl
@[simp] theorem endCommand_haltCause (p : Payload) (s : State) : (endCommand p s).haltCause = s.haltCause := rfl
@[simp] theorem endCommand_cur (p : Payload) (s : State) : (endCommand p s).cur = none := rfl
@[simp] theorem endCommand_lenR (p : Payload) (s : State) : (endCommand p s).lenR = none := rfl
@[simp] theorem endCommand_idx (p : Payload) (s : State) : (endCommand p s).idx = none := rfl
@[simp] theorem endCommand_selR (p : Payload) (s : State) : (endCommand p s).selR = none := rfl
@[simp] theorem endCommand_dbuf (p : Payload) (s : State) : (endCommand p s).dbuf = none := rfl
@[simp] theorem endCommand_obuf (p : Payload) (s : State) : (endCommand p s).obuf = none := rfl
@[simp] theorem endCommand_history (p : Payload) (s : State) : (endCommand p s).history = s.history ++ [.rsp p] := rfl
@[simp] theorem endCommand_ctlUnlocked (p : Payload) (s : State) : (endCommand p s).ctlUnlocked = s.ctlUnlocked := rfl
@[simp] theorem endCommand_ctlFlags (p : Payload) (s : State) : (endCommand p s).ctlFlags = s.ctlFlags := rfl
@[simp] theorem endCommand_flash (p : Payload) (s : State) : (endCommand p s).flash = s.flash := rfl
@[simp] theorem endCommand_offers (p : Payload) (s : State) : (endCommand p s).offers = s.offers := rfl
@[simp] theorem endCommand_ctlReplies (p : Payload) (s : State) : (endCommand p s).ctlReplies = s.ctlReplies := rfl
@[simp] theorem endCommand_memReplies (p : Payload) (s : State) : (endCommand p s).memReplies = s.memReplies := rfl
@[simp] theorem endCommand_resetReq (p : Payload) (s : State) : (endCommand p s).resetReq = s.resetReq := rfl
@[simp] theorem endCommand_draws (p : Payload) (s : State) : (endCommand p s).draws = s.draws := rfl

@[simp] theorem takeHalt_hw (c : HaltCause) (s : State) : (takeHalt c s).hw = s.hw := rfl
@[simp] theorem takeHalt_seq (c : HaltCause) (s : State) : (takeHalt c s).seq = .halted := rfl
@[simp] theorem takeHalt_haltCause (c : HaltCause) (s : State) : (takeHalt c s).haltCause = some c := rfl
@[simp] theorem takeHalt_cur (c : HaltCause) (s : State) : (takeHalt c s).cur = s.cur := rfl
@[simp] theorem takeHalt_lenR (c : HaltCause) (s : State) : (takeHalt c s).lenR = s.lenR := rfl
@[simp] theorem takeHalt_idx (c : HaltCause) (s : State) : (takeHalt c s).idx = s.idx := rfl
@[simp] theorem takeHalt_selR (c : HaltCause) (s : State) : (takeHalt c s).selR = s.selR := rfl
@[simp] theorem takeHalt_dbuf (c : HaltCause) (s : State) : (takeHalt c s).dbuf = s.dbuf := rfl
@[simp] theorem takeHalt_obuf (c : HaltCause) (s : State) : (takeHalt c s).obuf = s.obuf := rfl
@[simp] theorem takeHalt_history (c : HaltCause) (s : State) : (takeHalt c s).history = s.history ++ [.halt c] := rfl
@[simp] theorem takeHalt_ctlUnlocked (c : HaltCause) (s : State) : (takeHalt c s).ctlUnlocked = s.ctlUnlocked := rfl
@[simp] theorem takeHalt_ctlFlags (c : HaltCause) (s : State) : (takeHalt c s).ctlFlags = s.ctlFlags := rfl
@[simp] theorem takeHalt_flash (c : HaltCause) (s : State) : (takeHalt c s).flash = s.flash := rfl
@[simp] theorem takeHalt_offers (c : HaltCause) (s : State) : (takeHalt c s).offers = s.offers := rfl
@[simp] theorem takeHalt_ctlReplies (c : HaltCause) (s : State) : (takeHalt c s).ctlReplies = s.ctlReplies := rfl
@[simp] theorem takeHalt_memReplies (c : HaltCause) (s : State) : (takeHalt c s).memReplies = s.memReplies := rfl
@[simp] theorem takeHalt_resetReq (c : HaltCause) (s : State) : (takeHalt c s).resetReq = s.resetReq := rfl
@[simp] theorem takeHalt_draws (c : HaltCause) (s : State) : (takeHalt c s).draws = s.draws := rfl

@[simp] theorem ctlUnlock_hw (s : State) : (ctlUnlock s).hw = s.hw := rfl
@[simp] theorem ctlUnlock_seq (s : State) : (ctlUnlock s).seq = s.seq := rfl
@[simp] theorem ctlUnlock_haltCause (s : State) : (ctlUnlock s).haltCause = s.haltCause := rfl
@[simp] theorem ctlUnlock_cur (s : State) : (ctlUnlock s).cur = s.cur := rfl
@[simp] theorem ctlUnlock_lenR (s : State) : (ctlUnlock s).lenR = s.lenR := rfl
@[simp] theorem ctlUnlock_idx (s : State) : (ctlUnlock s).idx = s.idx := rfl
@[simp] theorem ctlUnlock_selR (s : State) : (ctlUnlock s).selR = s.selR := rfl
@[simp] theorem ctlUnlock_dbuf (s : State) : (ctlUnlock s).dbuf = s.dbuf := rfl
@[simp] theorem ctlUnlock_obuf (s : State) : (ctlUnlock s).obuf = s.obuf := rfl
@[simp] theorem ctlUnlock_history (s : State) : (ctlUnlock s).history = s.history ++ [.unlock] := rfl
@[simp] theorem ctlUnlock_ctlUnlocked (s : State) : (ctlUnlock s).ctlUnlocked = true := rfl
@[simp] theorem ctlUnlock_ctlFlags (s : State) : (ctlUnlock s).ctlFlags = s.ctlFlags := rfl
@[simp] theorem ctlUnlock_flash (s : State) : (ctlUnlock s).flash = s.flash := rfl
@[simp] theorem ctlUnlock_offers (s : State) : (ctlUnlock s).offers = s.offers := rfl
@[simp] theorem ctlUnlock_ctlReplies (s : State) : (ctlUnlock s).ctlReplies = s.ctlReplies := rfl
@[simp] theorem ctlUnlock_memReplies (s : State) : (ctlUnlock s).memReplies = s.memReplies := rfl
@[simp] theorem ctlUnlock_resetReq (s : State) : (ctlUnlock s).resetReq = s.resetReq := rfl
@[simp] theorem ctlUnlock_draws (s : State) : (ctlUnlock s).draws = s.draws := rfl

@[simp] theorem ctlLock_hw (s : State) : (ctlLock s).hw = s.hw := rfl
@[simp] theorem ctlLock_seq (s : State) : (ctlLock s).seq = s.seq := rfl
@[simp] theorem ctlLock_haltCause (s : State) : (ctlLock s).haltCause = s.haltCause := rfl
@[simp] theorem ctlLock_cur (s : State) : (ctlLock s).cur = s.cur := rfl
@[simp] theorem ctlLock_lenR (s : State) : (ctlLock s).lenR = s.lenR := rfl
@[simp] theorem ctlLock_idx (s : State) : (ctlLock s).idx = s.idx := rfl
@[simp] theorem ctlLock_selR (s : State) : (ctlLock s).selR = s.selR := rfl
@[simp] theorem ctlLock_dbuf (s : State) : (ctlLock s).dbuf = s.dbuf := rfl
@[simp] theorem ctlLock_obuf (s : State) : (ctlLock s).obuf = s.obuf := rfl
@[simp] theorem ctlLock_history (s : State) : (ctlLock s).history = s.history ++ [.lock] := rfl
@[simp] theorem ctlLock_ctlUnlocked (s : State) : (ctlLock s).ctlUnlocked = false := rfl
@[simp] theorem ctlLock_ctlFlags (s : State) : (ctlLock s).ctlFlags = s.ctlFlags := rfl
@[simp] theorem ctlLock_flash (s : State) : (ctlLock s).flash = s.flash := rfl
@[simp] theorem ctlLock_offers (s : State) : (ctlLock s).offers = s.offers := rfl
@[simp] theorem ctlLock_ctlReplies (s : State) : (ctlLock s).ctlReplies = s.ctlReplies := rfl
@[simp] theorem ctlLock_memReplies (s : State) : (ctlLock s).memReplies = s.memReplies := rfl
@[simp] theorem ctlLock_resetReq (s : State) : (ctlLock s).resetReq = s.resetReq := rfl
@[simp] theorem ctlLock_draws (s : State) : (ctlLock s).draws = s.draws := rfl

@[simp] theorem ctlClearFlags_hw (s : State) : (ctlClearFlags s).hw = s.hw := rfl
@[simp] theorem ctlClearFlags_seq (s : State) : (ctlClearFlags s).seq = s.seq := rfl
@[simp] theorem ctlClearFlags_haltCause (s : State) : (ctlClearFlags s).haltCause = s.haltCause := rfl
@[simp] theorem ctlClearFlags_cur (s : State) : (ctlClearFlags s).cur = s.cur := rfl
@[simp] theorem ctlClearFlags_lenR (s : State) : (ctlClearFlags s).lenR = s.lenR := rfl
@[simp] theorem ctlClearFlags_idx (s : State) : (ctlClearFlags s).idx = s.idx := rfl
@[simp] theorem ctlClearFlags_selR (s : State) : (ctlClearFlags s).selR = s.selR := rfl
@[simp] theorem ctlClearFlags_dbuf (s : State) : (ctlClearFlags s).dbuf = s.dbuf := rfl
@[simp] theorem ctlClearFlags_obuf (s : State) : (ctlClearFlags s).obuf = s.obuf := rfl
@[simp] theorem ctlClearFlags_history (s : State) : (ctlClearFlags s).history = s.history ++ [.clearFlags flagMask] := rfl
@[simp] theorem ctlClearFlags_ctlUnlocked (s : State) : (ctlClearFlags s).ctlUnlocked = s.ctlUnlocked := rfl
@[simp] theorem ctlClearFlags_ctlFlags (s : State) : (ctlClearFlags s).ctlFlags = clearedFlags flagMask s.ctlFlags := rfl
@[simp] theorem ctlClearFlags_flash (s : State) : (ctlClearFlags s).flash = s.flash := rfl
@[simp] theorem ctlClearFlags_offers (s : State) : (ctlClearFlags s).offers = s.offers := rfl
@[simp] theorem ctlClearFlags_ctlReplies (s : State) : (ctlClearFlags s).ctlReplies = s.ctlReplies := rfl
@[simp] theorem ctlClearFlags_memReplies (s : State) : (ctlClearFlags s).memReplies = s.memReplies := rfl
@[simp] theorem ctlClearFlags_resetReq (s : State) : (ctlClearFlags s).resetReq = s.resetReq := rfl
@[simp] theorem ctlClearFlags_draws (s : State) : (ctlClearFlags s).draws = s.draws := rfl

@[simp] theorem memRead_hw (a : Word) (r : MemReply) (s : State) : (memRead a r s).hw = s.hw := rfl
@[simp] theorem memRead_seq (a : Word) (r : MemReply) (s : State) : (memRead a r s).seq = s.seq := rfl
@[simp] theorem memRead_haltCause (a : Word) (r : MemReply) (s : State) : (memRead a r s).haltCause = s.haltCause := rfl
@[simp] theorem memRead_cur (a : Word) (r : MemReply) (s : State) : (memRead a r s).cur = s.cur := rfl
@[simp] theorem memRead_lenR (a : Word) (r : MemReply) (s : State) : (memRead a r s).lenR = s.lenR := rfl
@[simp] theorem memRead_idx (a : Word) (r : MemReply) (s : State) : (memRead a r s).idx = s.idx := rfl
@[simp] theorem memRead_selR (a : Word) (r : MemReply) (s : State) : (memRead a r s).selR = s.selR := rfl
@[simp] theorem memRead_dbuf (a : Word) (r : MemReply) (s : State) : (memRead a r s).dbuf = s.dbuf := rfl
@[simp] theorem memRead_obuf (a : Word) (r : MemReply) (s : State) : (memRead a r s).obuf = s.obuf := rfl
@[simp] theorem memRead_history (a : Word) (r : MemReply) (s : State) : (memRead a r s).history = s.history ++ [.memRd a (readValue a r s)] := rfl
@[simp] theorem memRead_ctlUnlocked (a : Word) (r : MemReply) (s : State) : (memRead a r s).ctlUnlocked = s.ctlUnlocked := rfl
@[simp] theorem memRead_ctlFlags (a : Word) (r : MemReply) (s : State) : (memRead a r s).ctlFlags = s.ctlFlags := rfl
@[simp] theorem memRead_flash (a : Word) (r : MemReply) (s : State) : (memRead a r s).flash = s.flash := rfl
@[simp] theorem memRead_offers (a : Word) (r : MemReply) (s : State) : (memRead a r s).offers = s.offers := rfl
@[simp] theorem memRead_ctlReplies (a : Word) (r : MemReply) (s : State) : (memRead a r s).ctlReplies = s.ctlReplies := rfl
@[simp] theorem memRead_memReplies (a : Word) (r : MemReply) (s : State) : (memRead a r s).memReplies = s.memReplies := rfl
@[simp] theorem memRead_resetReq (a : Word) (r : MemReply) (s : State) : (memRead a r s).resetReq = s.resetReq := rfl
@[simp] theorem memRead_draws (a : Word) (r : MemReply) (s : State) : (memRead a r s).draws = s.draws + readDraws a r s := rfl

/-! An answered operation changes the flash, the flags and the count of draws alone. -/

@[simp] theorem applyReply_hw (r : CtlReply) (m : Memory) (p : Nat → Bool) (s : State) :
    (applyReply r m p s).hw = s.hw := by cases r <;> rfl
@[simp] theorem applyReply_seq (r : CtlReply) (m : Memory) (p : Nat → Bool) (s : State) :
    (applyReply r m p s).seq = s.seq := by cases r <;> rfl
@[simp] theorem applyReply_haltCause (r : CtlReply) (m : Memory) (p : Nat → Bool) (s : State) :
    (applyReply r m p s).haltCause = s.haltCause := by cases r <;> rfl
@[simp] theorem applyReply_cur (r : CtlReply) (m : Memory) (p : Nat → Bool) (s : State) :
    (applyReply r m p s).cur = s.cur := by cases r <;> rfl
@[simp] theorem applyReply_lenR (r : CtlReply) (m : Memory) (p : Nat → Bool) (s : State) :
    (applyReply r m p s).lenR = s.lenR := by cases r <;> rfl
@[simp] theorem applyReply_idx (r : CtlReply) (m : Memory) (p : Nat → Bool) (s : State) :
    (applyReply r m p s).idx = s.idx := by cases r <;> rfl
@[simp] theorem applyReply_selR (r : CtlReply) (m : Memory) (p : Nat → Bool) (s : State) :
    (applyReply r m p s).selR = s.selR := by cases r <;> rfl
@[simp] theorem applyReply_dbuf (r : CtlReply) (m : Memory) (p : Nat → Bool) (s : State) :
    (applyReply r m p s).dbuf = s.dbuf := by cases r <;> rfl
@[simp] theorem applyReply_obuf (r : CtlReply) (m : Memory) (p : Nat → Bool) (s : State) :
    (applyReply r m p s).obuf = s.obuf := by cases r <;> rfl
@[simp] theorem applyReply_history (r : CtlReply) (m : Memory) (p : Nat → Bool) (s : State) :
    (applyReply r m p s).history = s.history := by cases r <;> rfl
@[simp] theorem applyReply_ctlUnlocked (r : CtlReply) (m : Memory) (p : Nat → Bool) (s : State) :
    (applyReply r m p s).ctlUnlocked = s.ctlUnlocked := by cases r <;> rfl
@[simp] theorem applyReply_offers (r : CtlReply) (m : Memory) (p : Nat → Bool) (s : State) :
    (applyReply r m p s).offers = s.offers := by cases r <;> rfl
@[simp] theorem applyReply_ctlReplies (r : CtlReply) (m : Memory) (p : Nat → Bool) (s : State) :
    (applyReply r m p s).ctlReplies = s.ctlReplies := by cases r <;> rfl
@[simp] theorem applyReply_memReplies (r : CtlReply) (m : Memory) (p : Nat → Bool) (s : State) :
    (applyReply r m p s).memReplies = s.memReplies := by cases r <;> rfl
@[simp] theorem applyReply_resetReq (r : CtlReply) (m : Memory) (p : Nat → Bool) (s : State) :
    (applyReply r m p s).resetReq = s.resetReq := by cases r <;> rfl

@[simp] theorem ctlErase_hw (n : Word) (r : CtlReply) (s : State) : (ctlErase n r s).hw = s.hw := by
  simp [ctlErase]
@[simp] theorem ctlErase_seq (n : Word) (r : CtlReply) (s : State) : (ctlErase n r s).seq = s.seq := by
  simp [ctlErase]
@[simp] theorem ctlErase_haltCause (n : Word) (r : CtlReply) (s : State) : (ctlErase n r s).haltCause = s.haltCause := by
  simp [ctlErase]
@[simp] theorem ctlErase_cur (n : Word) (r : CtlReply) (s : State) : (ctlErase n r s).cur = s.cur := by
  simp [ctlErase]
@[simp] theorem ctlErase_lenR (n : Word) (r : CtlReply) (s : State) : (ctlErase n r s).lenR = s.lenR := by
  simp [ctlErase]
@[simp] theorem ctlErase_idx (n : Word) (r : CtlReply) (s : State) : (ctlErase n r s).idx = s.idx := by
  simp [ctlErase]
@[simp] theorem ctlErase_selR (n : Word) (r : CtlReply) (s : State) : (ctlErase n r s).selR = s.selR := by
  simp [ctlErase]
@[simp] theorem ctlErase_dbuf (n : Word) (r : CtlReply) (s : State) : (ctlErase n r s).dbuf = s.dbuf := by
  simp [ctlErase]
@[simp] theorem ctlErase_obuf (n : Word) (r : CtlReply) (s : State) : (ctlErase n r s).obuf = s.obuf := by
  simp [ctlErase]
@[simp] theorem ctlErase_history (n : Word) (r : CtlReply) (s : State) : (ctlErase n r s).history = s.history ++ [.erase n (replyStatus r s)] := by
  simp [ctlErase]
@[simp] theorem ctlErase_ctlUnlocked (n : Word) (r : CtlReply) (s : State) : (ctlErase n r s).ctlUnlocked = s.ctlUnlocked := by
  simp [ctlErase]
@[simp] theorem ctlErase_offers (n : Word) (r : CtlReply) (s : State) : (ctlErase n r s).offers = s.offers := by
  simp [ctlErase]
@[simp] theorem ctlErase_ctlReplies (n : Word) (r : CtlReply) (s : State) : (ctlErase n r s).ctlReplies = s.ctlReplies := by
  simp [ctlErase]
@[simp] theorem ctlErase_memReplies (n : Word) (r : CtlReply) (s : State) : (ctlErase n r s).memReplies = s.memReplies := by
  simp [ctlErase]
@[simp] theorem ctlErase_resetReq (n : Word) (r : CtlReply) (s : State) : (ctlErase n r s).resetReq = s.resetReq := by
  simp [ctlErase]

@[simp] theorem ctlProgram_hw (a : Word) (v : Byte) (r : CtlReply) (s : State) : (ctlProgram a v r s).hw = s.hw := by
  simp [ctlProgram]
@[simp] theorem ctlProgram_seq (a : Word) (v : Byte) (r : CtlReply) (s : State) : (ctlProgram a v r s).seq = s.seq := by
  simp [ctlProgram]
@[simp] theorem ctlProgram_haltCause (a : Word) (v : Byte) (r : CtlReply) (s : State) : (ctlProgram a v r s).haltCause = s.haltCause := by
  simp [ctlProgram]
@[simp] theorem ctlProgram_cur (a : Word) (v : Byte) (r : CtlReply) (s : State) : (ctlProgram a v r s).cur = s.cur := by
  simp [ctlProgram]
@[simp] theorem ctlProgram_lenR (a : Word) (v : Byte) (r : CtlReply) (s : State) : (ctlProgram a v r s).lenR = s.lenR := by
  simp [ctlProgram]
@[simp] theorem ctlProgram_idx (a : Word) (v : Byte) (r : CtlReply) (s : State) : (ctlProgram a v r s).idx = s.idx := by
  simp [ctlProgram]
@[simp] theorem ctlProgram_selR (a : Word) (v : Byte) (r : CtlReply) (s : State) : (ctlProgram a v r s).selR = s.selR := by
  simp [ctlProgram]
@[simp] theorem ctlProgram_dbuf (a : Word) (v : Byte) (r : CtlReply) (s : State) : (ctlProgram a v r s).dbuf = s.dbuf := by
  simp [ctlProgram]
@[simp] theorem ctlProgram_obuf (a : Word) (v : Byte) (r : CtlReply) (s : State) : (ctlProgram a v r s).obuf = s.obuf := by
  simp [ctlProgram]
@[simp] theorem ctlProgram_history (a : Word) (v : Byte) (r : CtlReply) (s : State) : (ctlProgram a v r s).history = s.history ++ [.program a v (replyStatus r s)] := by
  simp [ctlProgram]
@[simp] theorem ctlProgram_ctlUnlocked (a : Word) (v : Byte) (r : CtlReply) (s : State) : (ctlProgram a v r s).ctlUnlocked = s.ctlUnlocked := by
  simp [ctlProgram]
@[simp] theorem ctlProgram_offers (a : Word) (v : Byte) (r : CtlReply) (s : State) : (ctlProgram a v r s).offers = s.offers := by
  simp [ctlProgram]
@[simp] theorem ctlProgram_ctlReplies (a : Word) (v : Byte) (r : CtlReply) (s : State) : (ctlProgram a v r s).ctlReplies = s.ctlReplies := by
  simp [ctlProgram]
@[simp] theorem ctlProgram_memReplies (a : Word) (v : Byte) (r : CtlReply) (s : State) : (ctlProgram a v r s).memReplies = s.memReplies := by
  simp [ctlProgram]
@[simp] theorem ctlProgram_resetReq (a : Word) (v : Byte) (r : CtlReply) (s : State) : (ctlProgram a v r s).resetReq = s.resetReq := by
  simp [ctlProgram]

@[simp] theorem resetBlock_hw (found : Abandoned) (s : State) : (resetBlock found s).hw = s.hw := rfl
@[simp] theorem resetBlock_seq (found : Abandoned) (s : State) : (resetBlock found s).seq = .idle := rfl
@[simp] theorem resetBlock_haltCause (found : Abandoned) (s : State) : (resetBlock found s).haltCause = none := rfl
@[simp] theorem resetBlock_cur (found : Abandoned) (s : State) : (resetBlock found s).cur = none := rfl
@[simp] theorem resetBlock_lenR (found : Abandoned) (s : State) : (resetBlock found s).lenR = none := rfl
@[simp] theorem resetBlock_idx (found : Abandoned) (s : State) : (resetBlock found s).idx = none := rfl
@[simp] theorem resetBlock_selR (found : Abandoned) (s : State) : (resetBlock found s).selR = none := rfl
@[simp] theorem resetBlock_dbuf (found : Abandoned) (s : State) : (resetBlock found s).dbuf = none := rfl
@[simp] theorem resetBlock_obuf (found : Abandoned) (s : State) : (resetBlock found s).obuf = none := rfl
@[simp] theorem resetBlock_history (found : Abandoned) (s : State) : (resetBlock found s).history = s.history := rfl
@[simp] theorem resetBlock_ctlUnlocked (found : Abandoned) (s : State) :
    (resetBlock found s).ctlUnlocked = if callInFlight s.seq then found.unlocked else s.ctlUnlocked := rfl
@[simp] theorem resetBlock_ctlFlags (found : Abandoned) (s : State) :
    (resetBlock found s).ctlFlags = if flagCallInFlight s.seq then found.flags else s.ctlFlags := rfl
@[simp] theorem resetBlock_flash (found : Abandoned) (s : State) :
    (resetBlock found s).flash = patchCells s.hw (inCommandRange s) s.flash found.cells := rfl
@[simp] theorem resetBlock_offers (found : Abandoned) (s : State) : (resetBlock found s).offers = s.offers := rfl
@[simp] theorem resetBlock_ctlReplies (found : Abandoned) (s : State) : (resetBlock found s).ctlReplies = s.ctlReplies := rfl
@[simp] theorem resetBlock_memReplies (found : Abandoned) (s : State) : (resetBlock found s).memReplies = s.memReplies := rfl
@[simp] theorem resetBlock_resetReq (found : Abandoned) (s : State) : (resetBlock found s).resetReq = none := rfl
@[simp] theorem resetBlock_draws (found : Abandoned) (s : State) : (resetBlock found s).draws = s.draws := rfl

end Sys2Proof.Machine
end

