-- ==== Sys2Proof/Laws/Ops.lean ====
section
/-! SUPPORT. One lemma per shared operation: everything it can do. -/

namespace Sys2Proof.Machine

/-- R72: an acceptance answers in `IDLE` only, and is then what the command does after its `Cmd` event. -/
theorem accept_next_iff (i : Instr) (s t : State) (act : State → State) :
    accept i s act = .next t ↔ s.seq = .idle ∧ act (emit (.cmd i) s) = t := by
  unfold accept
  split <;> simp [*]

@[simp] theorem accept_idle (i : Instr) (s : State) (act : State → State) (h : s.seq = .idle) :
    accept i s act = .next (act (emit (.cmd i) s)) := if_pos h

theorem accept_busy (i : Instr) (s : State) (act : State → State) (h : s.seq ≠ .idle) :
    accept i s act = .refused .channelNotReady := if_neg h

/-- R181: a call is answered, and the step is what follows the answer; or it is not, and nothing changes. -/
theorem awaitController_next (s t : State) (act : CtlReply → State → State) (h : awaitController s act = .next t) :
    (s.ctlReplies = [] ∧ t = s) ∨
      ∃ r rest, s.ctlReplies = r :: rest ∧ t = act r (setCtlReplies rest s) := by
  unfold awaitController at h
  split at h
  · next hr => cases h; exact .inl ⟨hr, rfl⟩
  · next r rest hr => cases h; exact .inr ⟨r, rest, hr, rfl⟩

theorem awaitController_answered (s : State) (act : CtlReply → State → State) (r : CtlReply) (rest : List CtlReply)
    (h : s.ctlReplies = r :: rest) : awaitController s act = .next (act r (setCtlReplies rest s)) := by
  simp [awaitController, h]

theorem awaitController_waits (s : State) (act : CtlReply → State → State) (h : s.ctlReplies = []) :
    awaitController s act = .next s := by
  simp [awaitController, h]

theorem awaitMemory_next (s t : State) (act : MemReply → State → State) (h : awaitMemory s act = .next t) :
    (s.memReplies = [] ∧ t = s) ∨
      ∃ r rest, s.memReplies = r :: rest ∧ t = act r (setMemReplies rest s) := by
  unfold awaitMemory at h
  split at h
  · next hr => cases h; exact .inl ⟨hr, rfl⟩
  · next r rest hr => cases h; exact .inr ⟨r, rest, hr, rfl⟩

theorem awaitMemory_answered (s : State) (act : MemReply → State → State) (r : MemReply) (rest : List MemReply)
    (h : s.memReplies = r :: rest) : awaitMemory s act = .next (act r (setMemReplies rest s)) := by
  simp [awaitMemory, h]

theorem awaitMemory_waits (s : State) (act : MemReply → State → State) (h : s.memReplies = []) :
    awaitMemory s act = .next s := by
  simp [awaitMemory, h]

/-! A latch that holds a value reads as it. -/

theorem curVal_of_some (s : State) (a : Word) (h : s.cur = some a) : curVal s = a := by simp [curVal, h]
theorem lenVal_of_some (s : State) (n : Half) (h : s.lenR = some n) : lenVal s = n := by simp [lenVal, h]
theorem idxVal_of_some (s : State) (i : Half) (h : s.idx = some i) : idxVal s = i := by simp [idxVal, h]
theorem selVal_of_some (s : State) (n : Word) (h : s.selR = some n) : selVal s = n := by simp [selVal, h]
theorem dbufVal_of_some (s : State) (d : List Byte) (h : s.dbuf = some d) : dbufVal s = d := by simp [dbufVal, h]
theorem obufVal_of_some (s : State) (o : List Byte) (h : s.obuf = some o) : obufVal s = o := by simp [obufVal, h]

theorem dataByte_of_some (s : State) (d : List Byte) (i : Half) (v : Byte) (hd : s.dbuf = some d)
    (hi : s.idx = some i) (hv : d[i.toNat]? = some v) : dataByte s = v := by
  simp [dataByte, dbufVal, idxVal, hd, hi, hv]

/-! An answer used up changes no operand. -/

@[simp] theorem curVal_setCtlReplies (rest : List CtlReply) (s : State) : curVal (setCtlReplies rest s) = curVal s := rfl
@[simp] theorem lenVal_setCtlReplies (rest : List CtlReply) (s : State) : lenVal (setCtlReplies rest s) = lenVal s := rfl
@[simp] theorem idxVal_setCtlReplies (rest : List CtlReply) (s : State) : idxVal (setCtlReplies rest s) = idxVal s := rfl
@[simp] theorem selVal_setCtlReplies (rest : List CtlReply) (s : State) : selVal (setCtlReplies rest s) = selVal s := rfl
@[simp] theorem dataByte_setCtlReplies (rest : List CtlReply) (s : State) : dataByte (setCtlReplies rest s) = dataByte s := rfl
@[simp] theorem replyStatus_setCtlReplies (r : CtlReply) (rest : List CtlReply) (s : State) :
    replyStatus r (setCtlReplies rest s) = replyStatus r s := rfl
@[simp] theorem readValue_setMemReplies (a : Word) (r : MemReply) (rest : List MemReply) (s : State) :
    readValue a r (setMemReplies rest s) = readValue a r s := rfl

/-! The status of an answer. -/

theorem replyStatus_scripted (st : Status) (flags : CtlFlags) (cells : List Host.Cell) (s : State) :
    replyStatus (.scripted st flags cells) s = st := rfl

theorem replyStatus_reference (s : State) : replyStatus .reference s = .ready ↔ s.ctlUnlocked = true := by
  unfold replyStatus
  split <;> simp_all

end Sys2Proof.Machine
end

