-- ==== Sys2Proof/Laws/Step.lean ====
section
/-! SUPPORT. What a step can do, said once: the inversion of `step` and of each chain step. -/

namespace Sys2Proof.Machine

/-- A step that answers: the reset asked for, a wait, a command taken, or the action of the sequencer's state. -/
theorem step_cases (s t : State) (h : step s = .next t) :
    s.hw.legal = true ∧
      ((∃ found, s.resetReq = some found ∧ t = resetBlock found s) ∨
        (s.resetReq = none ∧ s.seq = .idle ∧ s.offers = [] ∧ t = s) ∨
        (∃ frame rest i, s.resetReq = none ∧ s.seq = .idle ∧ s.offers = frame :: rest ∧ decode frame = .ok i ∧
          exec i { s with offers := rest } = .next t) ∨
        (s.resetReq = none ∧ s.seq ≠ .idle ∧ chainStep s = .next t)) := by
  unfold step oneStep at h
  split at h
  · next hl =>
    refine ⟨hl, ?_⟩
    split at h
    · next found hr => exact .inl ⟨found, hr, by cases h; rfl⟩
    · next hr =>
      split at h
      · next hs =>
        unfold nextOffer at h
        cases ho : s.offers with
        | nil => rw [ho] at h; cases h; exact .inr (.inl ⟨hr, hs, rfl, rfl⟩)
        | cons frame rest =>
          rw [ho] at h
          cases hd : decode frame with
          | error why => simp [hd] at h
          | ok i => simp only [hd] at h; exact .inr (.inr (.inl ⟨frame, rest, i, hr, hs, rfl, hd, h⟩))
      · next hs => exact .inr (.inr (.inr ⟨hr, hs, h⟩))
  · cases h

/-- Outside `IDLE`, no reset asked for, a step is the action of the sequencer's state. -/
theorem step_chain (s : State) (hl : s.hw.legal = true) (hr : s.resetReq = none) (hs : s.seq ≠ .idle) :
    step s = chainStep s := by
  simp [step, oneStep, hl, hr, hs]

/-- In `IDLE`, no reset asked for, a step runs the command the oldest transaction carries. -/
theorem step_command (s : State) (i : Instr) (frame : List Byte) (rest : List (List Byte)) (hl : s.hw.legal = true)
    (hr : s.resetReq = none) (hs : s.seq = .idle) (ho : s.offers = frame :: rest) (hd : decode frame = .ok i) :
    step s = exec i { s with offers := rest } := by
  simp [step, oneStep, hl, hr, hs, nextOffer, ho, hd]

/-- R22: the action of each state that waits for an answer, `HALTED` having none. -/
theorem chainStep_cases (s t : State) (hs : s.seq ≠ .idle) (h : chainStep s = .next t) :
    (s.seq = .erUnlock ∧ stepErUnlock s = .next t) ∨ (s.seq = .erClear ∧ stepErClear s = .next t) ∨
      (s.seq = .erErase ∧ stepErErase s = .next t) ∨ (s.seq = .erLock ∧ stepErLock s = .next t) ∨
      (s.seq = .wrUnlock ∧ stepWrUnlock s = .next t) ∨ (s.seq = .wrClear ∧ stepWrClear s = .next t) ∨
      (s.seq = .wrProg ∧ stepWrProg s = .next t) ∨ (s.seq = .wrLock ∧ stepWrLock s = .next t) ∨
      (s.seq = .rdByte ∧ stepRdByte s = .next t) := by
  unfold chainStep at h
  split at h <;> simp_all

end Sys2Proof.Machine
end

