-- ==== Sys2Proof/Laws/Chain.lean ====
section
/-! SUPPORT. Everything an answered step of a chain does, one lemma a state of the sequencer. A step not answered changes nothing (awaitController_waits, awaitMemory_waits). -/

namespace Sys2Proof.Machine

theorem stepErUnlock_answered (s : State) (r : CtlReply) (rest : List CtlReply) (h : s.ctlReplies = r :: rest) :
    stepErUnlock s = .next (goto .erClear (ctlUnlock (setCtlReplies rest s))) :=
  awaitController_answered s _ r rest h

theorem stepErClear_answered (s : State) (r : CtlReply) (rest : List CtlReply) (h : s.ctlReplies = r :: rest) :
    stepErClear s = .next (goto .erErase (ctlClearFlags (setCtlReplies rest s))) :=
  awaitController_answered s _ r rest h

theorem stepErErase_ready (s : State) (r : CtlReply) (rest : List CtlReply) (h : s.ctlReplies = r :: rest)
    (hr : replyStatus r s = .ready) :
    stepErErase s = .next (goto .erLock (ctlErase (selVal s) r (setCtlReplies rest s))) := by
  rw [stepErErase, awaitController_answered s _ r rest h, replyStatus_setCtlReplies, if_pos hr]
  rfl

theorem stepErErase_failed (s : State) (r : CtlReply) (rest : List CtlReply) (h : s.ctlReplies = r :: rest)
    (hr : replyStatus r s ≠ .ready) :
    stepErErase s = .next (takeHalt .eraseFail (ctlErase (selVal s) r (setCtlReplies rest s))) := by
  rw [stepErErase, awaitController_answered s _ r rest h, replyStatus_setCtlReplies, if_neg hr]
  rfl

theorem stepErLock_answered (s : State) (r : CtlReply) (rest : List CtlReply) (h : s.ctlReplies = r :: rest) :
    stepErLock s = .next (endCommand .none (ctlLock (setCtlReplies rest s))) :=
  awaitController_answered s _ r rest h

theorem stepWrUnlock_answered (s : State) (r : CtlReply) (rest : List CtlReply) (h : s.ctlReplies = r :: rest) :
    stepWrUnlock s = .next (goto .wrClear (ctlUnlock (setCtlReplies rest s))) :=
  awaitController_answered s _ r rest h

theorem stepWrClear_answered (s : State) (r : CtlReply) (rest : List CtlReply) (h : s.ctlReplies = r :: rest) :
    stepWrClear s = .next (goto (if lenVal s = 0 then .wrLock else .wrProg) (ctlClearFlags (setCtlReplies rest s))) :=
  awaitController_answered s _ r rest h

theorem stepWrProg_ready (s : State) (r : CtlReply) (rest : List CtlReply) (h : s.ctlReplies = r :: rest)
    (hr : replyStatus r s = .ready) :
    stepWrProg s = .next (goto (if idxVal s + 1 < lenVal s then .wrProg else .wrLock)
      (advance (curVal s) (idxVal s) (ctlProgram (curVal s) (dataByte s) r (setCtlReplies rest s)))) := by
  rw [stepWrProg, awaitController_answered s _ r rest h, replyStatus_setCtlReplies, if_pos hr]
  rfl

theorem stepWrProg_failed (s : State) (r : CtlReply) (rest : List CtlReply) (h : s.ctlReplies = r :: rest)
    (hr : replyStatus r s ≠ .ready) :
    stepWrProg s =
      .next (takeHalt .programFail (ctlProgram (curVal s) (dataByte s) r (setCtlReplies rest s))) := by
  rw [stepWrProg, awaitController_answered s _ r rest h, replyStatus_setCtlReplies, if_neg hr]
  rfl

theorem stepWrLock_answered (s : State) (r : CtlReply) (rest : List CtlReply) (h : s.ctlReplies = r :: rest) :
    stepWrLock s = .next (endCommand .none (ctlLock (setCtlReplies rest s))) :=
  awaitController_answered s _ r rest h

/-- R162: bytes remain after this one. -/
theorem stepRdByte_more (s : State) (r : MemReply) (rest : List MemReply) (h : s.memReplies = r :: rest)
    (hn : idxVal s + 1 < lenVal s) :
    stepRdByte s = .next (goto .rdByte (advance (curVal s) (idxVal s)
      { memRead (curVal s) r (setMemReplies rest s) with obuf := some (obufVal s ++ [readValue (curVal s) r s]) })) := by
  rw [stepRdByte, awaitMemory_answered s _ r rest h]
  exact congrArg _ (if_pos hn)

/-- R162: this was the last byte. -/
theorem stepRdByte_last (s : State) (r : MemReply) (rest : List MemReply) (h : s.memReplies = r :: rest)
    (hn : ¬ idxVal s + 1 < lenVal s) :
    stepRdByte s = .next (endCommand (.bytes (obufVal s ++ [readValue (curVal s) r s]))
      (memRead (curVal s) r (setMemReplies rest s))) := by
  rw [stepRdByte, awaitMemory_answered s _ r rest h]
  exact congrArg _ (if_neg hn)

/-- What the memory system answers is a byte it may answer. -/
theorem mayRead_readValue (s : State) (a : Word) (r : MemReply) : MayRead s a r (readValue a r s) := by
  cases r with
  | contents => exact fun h => if_pos h
  | byte v => rfl

/-- R22, said once: an enabled chain step waits and changes nothing, or is one of these answered steps. -/
theorem chainStep_next (s t : State) (hs : s.seq ≠ .idle) (h : chainStep s = .next t) :
    t = s ∨
    (∃ r rest, s.ctlReplies = r :: rest ∧
      ((s.seq = .erUnlock ∧ t = goto .erClear (ctlUnlock (setCtlReplies rest s))) ∨
       (s.seq = .erClear ∧ t = goto .erErase (ctlClearFlags (setCtlReplies rest s))) ∨
       (s.seq = .erErase ∧ replyStatus r s = .ready ∧
          t = goto .erLock (ctlErase (selVal s) r (setCtlReplies rest s))) ∨
       (s.seq = .erErase ∧ replyStatus r s ≠ .ready ∧
          t = takeHalt .eraseFail (ctlErase (selVal s) r (setCtlReplies rest s))) ∨
       (s.seq = .erLock ∧ t = endCommand .none (ctlLock (setCtlReplies rest s))) ∨
       (s.seq = .wrUnlock ∧ t = goto .wrClear (ctlUnlock (setCtlReplies rest s))) ∨
       (s.seq = .wrClear ∧ t = goto (if lenVal s = 0 then .wrLock else .wrProg)
          (ctlClearFlags (setCtlReplies rest s))) ∨
       (s.seq = .wrProg ∧ replyStatus r s = .ready ∧
          t = goto (if idxVal s + 1 < lenVal s then .wrProg else .wrLock)
                (advance (curVal s) (idxVal s) (ctlProgram (curVal s) (dataByte s) r (setCtlReplies rest s)))) ∨
       (s.seq = .wrProg ∧ replyStatus r s ≠ .ready ∧
          t = takeHalt .programFail (ctlProgram (curVal s) (dataByte s) r (setCtlReplies rest s))) ∨
       (s.seq = .wrLock ∧ t = endCommand .none (ctlLock (setCtlReplies rest s))))) ∨
    (∃ r rest, s.memReplies = r :: rest ∧ s.seq = .rdByte ∧
      ((idxVal s + 1 < lenVal s ∧
          t = goto .rdByte (advance (curVal s) (idxVal s)
                { memRead (curVal s) r (setMemReplies rest s) with
                  obuf := some (obufVal s ++ [readValue (curVal s) r s]) })) ∨
       (¬ idxVal s + 1 < lenVal s ∧
          t = endCommand (.bytes (obufVal s ++ [readValue (curVal s) r s]))
                (memRead (curVal s) r (setMemReplies rest s))))) := by
  rcases chainStep_cases s t hs h with ⟨e, h⟩ | ⟨e, h⟩ | ⟨e, h⟩ | ⟨e, h⟩ | ⟨e, h⟩ | ⟨e, h⟩ | ⟨e, h⟩ | ⟨e, h⟩ | ⟨e, h⟩
  · rcases hr : s.ctlReplies with _ | ⟨r, rest⟩
    · rw [stepErUnlock, awaitController_waits s _ hr] at h
      cases h
      exact .inl rfl
    · rw [stepErUnlock_answered s r rest hr] at h
      cases h
      exact .inr (.inl ⟨r, rest, rfl, .inl ⟨e, rfl⟩⟩)
  · rcases hr : s.ctlReplies with _ | ⟨r, rest⟩
    · rw [stepErClear, awaitController_waits s _ hr] at h
      cases h
      exact .inl rfl
    · rw [stepErClear_answered s r rest hr] at h
      cases h
      exact .inr (.inl ⟨r, rest, rfl, .inr (.inl ⟨e, rfl⟩)⟩)
  · rcases hr : s.ctlReplies with _ | ⟨r, rest⟩
    · rw [stepErErase, awaitController_waits s _ hr] at h
      cases h
      exact .inl rfl
    · by_cases hy : replyStatus r s = .ready
      · rw [stepErErase_ready s r rest hr hy] at h
        cases h
        exact .inr (.inl ⟨r, rest, rfl, .inr (.inr (.inl ⟨e, hy, rfl⟩))⟩)
      · rw [stepErErase_failed s r rest hr hy] at h
        cases h
        exact .inr (.inl ⟨r, rest, rfl, .inr (.inr (.inr (.inl ⟨e, hy, rfl⟩)))⟩)
  · rcases hr : s.ctlReplies with _ | ⟨r, rest⟩
    · rw [stepErLock, awaitController_waits s _ hr] at h
      cases h
      exact .inl rfl
    · rw [stepErLock_answered s r rest hr] at h
      cases h
      exact .inr (.inl ⟨r, rest, rfl, .inr (.inr (.inr (.inr (.inl ⟨e, rfl⟩))))⟩)
  · rcases hr : s.ctlReplies with _ | ⟨r, rest⟩
    · rw [stepWrUnlock, awaitController_waits s _ hr] at h
      cases h
      exact .inl rfl
    · rw [stepWrUnlock_answered s r rest hr] at h
      cases h
      exact .inr (.inl ⟨r, rest, rfl, .inr (.inr (.inr (.inr (.inr (.inl ⟨e, rfl⟩)))))⟩)
  · rcases hr : s.ctlReplies with _ | ⟨r, rest⟩
    · rw [stepWrClear, awaitController_waits s _ hr] at h
      cases h
      exact .inl rfl
    · rw [stepWrClear_answered s r rest hr] at h
      cases h
      exact .inr (.inl ⟨r, rest, rfl, .inr (.inr (.inr (.inr (.inr (.inr (.inl ⟨e, rfl⟩))))))⟩)
  · rcases hr : s.ctlReplies with _ | ⟨r, rest⟩
    · rw [stepWrProg, awaitController_waits s _ hr] at h
      cases h
      exact .inl rfl
    · by_cases hy : replyStatus r s = .ready
      · rw [stepWrProg_ready s r rest hr hy] at h
        cases h
        exact .inr (.inl ⟨r, rest, rfl, .inr (.inr (.inr (.inr (.inr (.inr (.inr (.inl ⟨e, hy, rfl⟩)))))))⟩)
      · rw [stepWrProg_failed s r rest hr hy] at h
        cases h
        exact .inr (.inl ⟨r, rest, rfl, .inr (.inr (.inr (.inr (.inr (.inr (.inr (.inr (.inl ⟨e, hy, rfl⟩))))))))⟩)
  · rcases hr : s.ctlReplies with _ | ⟨r, rest⟩
    · rw [stepWrLock, awaitController_waits s _ hr] at h
      cases h
      exact .inl rfl
    · rw [stepWrLock_answered s r rest hr] at h
      cases h
      exact .inr (.inl ⟨r, rest, rfl, .inr (.inr (.inr (.inr (.inr (.inr (.inr (.inr (.inr ⟨e, rfl⟩))))))))⟩)
  · rcases hr : s.memReplies with _ | ⟨r, rest⟩
    · rw [stepRdByte, awaitMemory_waits s _ hr] at h
      cases h
      exact .inl rfl
    · by_cases hn : idxVal s + 1 < lenVal s
      · rw [stepRdByte_more s r rest hr hn] at h
        cases h
        exact .inr (.inr ⟨r, rest, rfl, e, .inl ⟨hn, rfl⟩⟩)
      · rw [stepRdByte_last s r rest hr hn] at h
        cases h
        exact .inr (.inr ⟨r, rest, rfl, e, .inr ⟨hn, rfl⟩⟩)

end Sys2Proof.Machine
end

