-- ==== Sys2Proof/Laws/Commands.lean ====
section
/-! SUPPORT. Everything a command's accepting step can do, one lemma a command. -/

namespace Sys2Proof.Machine

theorem execResolve_next (address : Word) (s t : State) (h : execResolve address s = .next t) :
    s.seq = .idle ∧ t = respond (.info (resolve s.hw address)) (emit (.cmd (.resolve address)) s) := by
  obtain ⟨hs, rfl⟩ := (accept_next_iff _ _ _ _).mp h
  exact ⟨hs, rfl⟩

theorem execName2num_next (name : Word) (s t : State) (h : execName2num name s = .next t) :
    s.seq = .idle ∧
      ((∃ k, selectorOfName name = some k ∧ t = respond (.number (ctlIdx k)) (emit (.cmd (.name2num name)) s)) ∨
        (selectorOfName name = none ∧ t = takeHalt .nameRange (emit (.cmd (.name2num name)) s))) := by
  obtain ⟨hs, rfl⟩ := (accept_next_iff _ _ _ _).mp h
  refine ⟨hs, ?_⟩
  cases hk : selectorOfName name with
  | some k => exact .inl ⟨k, rfl, rfl⟩
  | none => exact .inr ⟨rfl, rfl⟩

theorem execErase_next (address : Word) (s t : State) (h : execErase address s = .next t) :
    s.seq = .idle ∧
      (((resolve s.hw address).sectorName = invalidName ∧
          t = takeHalt .eraseBadAddr (emit (.cmd (.erase address)) s)) ∨
        ((resolve s.hw address).sectorName ≠ invalidName ∧
          t = goto .erUnlock { emit (.cmd (.erase address)) s with
                selR := some (resolve s.hw address).sectorNumber })) := by
  obtain ⟨hs, rfl⟩ := (accept_next_iff _ _ _ _).mp h
  refine ⟨hs, ?_⟩
  dsimp only
  split
  · next hn => exact .inl ⟨hn, rfl⟩
  · next hn => exact .inr ⟨hn, rfl⟩

theorem execWrite_next (address : Word) (length : Half) (data : List Byte) (s t : State)
    (h : execWrite address length data s = .next t) :
    s.seq = .idle ∧ length.toNat ≤ data.length ∧
      t = goto .wrUnlock { emit (.cmd (.write address length data)) s with
            cur := some address
            lenR := some length
            idx := some 0
            dbuf := some (data.take length.toNat) } := by
  unfold execWrite at h
  split at h
  · next hn =>
    obtain ⟨hs, rfl⟩ := (accept_next_iff _ _ _ _).mp h
    exact ⟨hs, hn, rfl⟩
  · cases h

theorem execRead_next (address : Word) (length : Half) (s t : State) (h : execRead address length s = .next t) :
    s.seq = .idle ∧
      ((length = 0 ∧ t = endCommand (.bytes []) (emit (.cmd (.read address length)) s)) ∨
        (length ≠ 0 ∧
          t = goto .rdByte { emit (.cmd (.read address length)) s with
                cur := some address, lenR := some length, idx := some 0, obuf := some [] })) := by
  obtain ⟨hs, rfl⟩ := (accept_next_iff _ _ _ _).mp h
  refine ⟨hs, ?_⟩
  dsimp only
  split
  · next hn => exact .inl ⟨hn, rfl⟩
  · next hn => exact .inr ⟨hn, rfl⟩

/-- R72: every command is accepted in `IDLE` only. -/
theorem exec_next_idle (i : Instr) (s t : State) (h : exec i s = .next t) : s.seq = .idle := by
  cases i with
  | resolve a => exact (execResolve_next a s t h).1
  | name2num a => exact (execName2num_next a s t h).1
  | erase a => exact (execErase_next a s t h).1
  | write a n d => exact (execWrite_next a n d s t h).1
  | read a n => exact (execRead_next a n s t h).1

end Sys2Proof.Machine
end

