-- ==== Sys2Proof/Laws/Decode.lean ====
section
/-! SUPPORT. The field readers undo the field writers (log entry 1). -/

namespace Sys2Proof

theorem word32_of_bytes (v : Word) :
    word32 (BitVec.ofNat 8 v.toNat) (BitVec.ofNat 8 (v.toNat / 0x100)) (BitVec.ofNat 8 (v.toNat / 0x10000))
      (BitVec.ofNat 8 (v.toNat / 0x1000000)) = v := by
  apply BitVec.eq_of_toNat_eq
  simp only [word32, BitVec.toNat_ofNat]
  have := v.isLt
  omega

theorem half16_of_bytes (v : Half) : half16 (BitVec.ofNat 8 v.toNat) (BitVec.ofNat 8 (v.toNat / 0x100)) = v := by
  apply BitVec.eq_of_toNat_eq
  simp only [half16, BitVec.toNat_ofNat]
  have := v.isLt
  omega

theorem bytes32_of_word (b0 b1 b2 b3 : Byte) : bytes32 (word32 b0 b1 b2 b3) = [b0, b1, b2, b3] := by
  have h0 := b0.isLt
  have h1 := b1.isLt
  have h2 := b2.isLt
  have h3 := b3.isLt
  simp only [bytes32, word32, BitVec.toNat_ofNat, List.cons.injEq, and_true]
  refine ⟨?_, ?_, ?_, ?_⟩ <;> apply BitVec.eq_of_toNat_eq <;> simp only [BitVec.toNat_ofNat] <;> omega

theorem bytes16_of_half (b0 b1 : Byte) : bytes16 (half16 b0 b1) = [b0, b1] := by
  have h0 := b0.isLt
  have h1 := b1.isLt
  simp only [bytes16, half16, BitVec.toNat_ofNat, List.cons.injEq, and_true]
  refine ⟨?_, ?_⟩ <;> apply BitVec.eq_of_toNat_eq <;> simp only [BitVec.toNat_ofNat] <;> omega

@[simp] theorem opField_opByte (i : Instr) : opField (opByte i) = i.opCode := by
  cases i <;> rfl

/-! R70: the reader each command code selects. -/

theorem decodeFields_resolve (operands : List Byte) : decodeFields 0 operands = decodeWord .resolve operands := rfl
theorem decodeFields_name2num (operands : List Byte) : decodeFields 1 operands = decodeWord .name2num operands := rfl
theorem decodeFields_erase (operands : List Byte) : decodeFields 2 operands = decodeWord .erase operands := rfl
theorem decodeFields_write (operands : List Byte) : decodeFields 3 operands = decodeWrite operands := rfl
theorem decodeFields_read (operands : List Byte) : decodeFields 4 operands = decodeRead operands := rfl

theorem decode_opByte (i : Instr) (operands : List Byte) :
    decode (opByte i :: operands) = decodeFields i.opCode operands := by
  rw [decode, opField_opByte]

end Sys2Proof
end

