-- ==== Sys2Proof/Laws/Memory.lean ====
section
/-! SUPPORT. The flash contents: what each memory operation reads as afterwards, and that each keeps the canonical form. -/

namespace Sys2Proof.Machine

/-! Reading after an operation -/

@[simp] theorem readCell_nil (x : Nat) : readCell [] x = unlistedByte := rfl

theorem readCell_filter_kept (p : Host.Cell → Bool) (m : Memory) (x : Nat)
    (h : ∀ c : Host.Cell, c.1 = x → p c = true) : readCell (m.filter p) x = readCell m x := by
  induction m with
  | nil => rfl
  | cons c rest ih =>
    by_cases hc : c.1 = x
    · simp [h c hc, readCell, hc]
    · by_cases hp : p c = true
      · simp [hp, readCell, hc, ih]
      · simp [hp, readCell, hc, ih]

theorem readCell_filter_dropped (p : Host.Cell → Bool) (m : Memory) (x : Nat)
    (h : ∀ c : Host.Cell, c.1 = x → p c = false) : readCell (m.filter p) x = unlistedByte := by
  induction m with
  | nil => rfl
  | cons c rest ih =>
    by_cases hp : p c = true
    · have hc : c.1 ≠ x := fun e => by simp [h c e] at hp
      simp [hp, readCell, hc, ih]
    · simp [hp, ih]

theorem readCell_dropCell (m : Memory) (a x : Nat) :
    readCell (dropCell m a) x = if x = a then unlistedByte else readCell m x := by
  by_cases h : x = a
  · rw [if_pos h]
    exact readCell_filter_dropped _ m x fun c hc => by simp [hc, h]
  · rw [if_neg h]
    exact readCell_filter_kept _ m x fun c hc => by simp [hc, h]

theorem readCell_insertCell_other (m : Memory) (a x : Nat) (b : Byte) (h : x ≠ a) :
    readCell (insertCell m a b) x = readCell m x := by
  induction m with
  | nil => simp [insertCell, readCell, Ne.symm h]
  | cons c rest ih =>
    unfold insertCell
    split
    · simp [readCell, Ne.symm h]
    · simp [readCell, ih]

theorem readCell_insertCell_same (m : Memory) (a : Nat) (b : Byte) (h : ∀ c ∈ m, c.1 ≠ a) :
    readCell (insertCell m a b) a = b := by
  induction m with
  | nil => simp [insertCell, readCell]
  | cons c rest ih =>
    have hc : c.1 ≠ a := h c (by simp)
    unfold insertCell
    split
    · simp [readCell]
    · simp [readCell, hc, ih fun d hd => h d (by simp [hd])]

theorem dropCell_free (m : Memory) (a : Nat) : ∀ c ∈ dropCell m a, c.1 ≠ a := by
  intro c hc
  simpa using (List.mem_filter.mp hc).2

/-- A read after a write of one byte. -/
theorem readCell_writeCell (m : Memory) (a x : Nat) (b : Byte) :
    readCell (writeCell m a b) x = if x = a then b else readCell m x := by
  unfold writeCell
  split
  · next hb => rw [readCell_dropCell, hb]
  · by_cases h : x = a
    · subst h
      rw [if_pos rfl, readCell_insertCell_same _ _ _ (dropCell_free m x)]
    · rw [if_neg h, readCell_insertCell_other _ _ _ _ h, readCell_dropCell, if_neg h]

/-- A read after an erase of a range. -/
theorem readCell_eraseCells (m : Memory) (first last x : Nat) :
    readCell (eraseCells m first last) x = if first ≤ x ∧ x ≤ last then unlistedByte else readCell m x := by
  by_cases h : first ≤ x ∧ x ≤ last
  · rw [if_pos h]
    refine readCell_filter_dropped _ m x fun c hc => ?_
    have : ¬ c.1 < first ∧ ¬ last < c.1 := by omega
    simp [this.1, this.2]
  · rw [if_neg h]
    refine readCell_filter_kept _ m x fun c hc => ?_
    have : c.1 < first ∨ last < c.1 := by omega
    simpa using this

/-- A byte the target does not admit is not changed by a patch. -/
theorem readCell_patchCells_other (hw : Params) (target : Nat → Bool) (m : Memory) (cells : List Host.Cell) (x : Nat)
    (h : target x = false) : readCell (patchCells hw target m cells) x = readCell m x := by
  induction cells generalizing m with
  | nil => rfl
  | cons c rest ih =>
    have step : patchCells hw target m (c :: rest) =
        patchCells hw target (if target c.1 && inRegion hw c.1 then writeCell m c.1 c.2 else m) rest := rfl
    rw [step, ih]
    split
    · next hc =>
      rw [readCell_writeCell, if_neg]
      rintro rfl
      simp [h] at hc
    · rfl

/-- A patch whose target admits nothing changes nothing. -/
theorem patchCells_none (hw : Params) (target : Nat → Bool) (m : Memory) (cells : List Host.Cell)
    (h : ∀ x, target x = false) : patchCells hw target m cells = m := by
  induction cells generalizing m with
  | nil => rfl
  | cons c rest ih =>
    have step : patchCells hw target m (c :: rest) =
        patchCells hw target (if target c.1 && inRegion hw c.1 then writeCell m c.1 c.2 else m) rest := rfl
    rw [step, ih, h]
    simp

/-- A listed byte that the target admits and the region holds reads, after a patch, as what is listed for it. -/
theorem readCell_patchCells_listed (hw : Params) (target : Nat → Bool) (m : Memory) (contents : Nat → Byte)
    (addresses : List Nat) (x : Nat) (hx : x ∈ addresses) (ht : target x = true) (hr : inRegion hw x = true) :
    readCell (patchCells hw target m (addresses.map fun a => (a, contents a))) x = contents x := by
  suffices h : ∀ m : Memory, x ∈ addresses ∨ readCell m x = contents x →
      readCell (patchCells hw target m (addresses.map fun a => (a, contents a))) x = contents x from h m (.inl hx)
  clear hx
  induction addresses with
  | nil => exact fun m h => by simpa [patchCells] using h
  | cons a rest ih =>
    intro m h
    have step : patchCells hw target m ((a :: rest).map fun a => (a, contents a)) =
        patchCells hw target (if target a && inRegion hw a then writeCell m a (contents a) else m)
          (rest.map fun a => (a, contents a)) := rfl
    rw [step]
    refine ih _ ?_
    by_cases e : x = a
    · subst e
      exact .inr (by rw [if_pos (by simp [ht, hr]), readCell_writeCell, if_pos rfl])
    · refine h.imp (fun h => by simpa [e] using h) fun h => ?_
      split
      · rw [readCell_writeCell, if_neg e, h]
      · exact h

/-! The canonical form -/

theorem memoryWf_cons (c : Host.Cell) (rest : Memory) :
    memoryWf (c :: rest) = true ↔ c.2 ≠ unlistedByte ∧ (∀ d ∈ rest, c.1 < d.1) ∧ memoryWf rest = true := by
  simp [memoryWf, and_assoc]

theorem memoryWf_filter (p : Host.Cell → Bool) (m : Memory) (h : memoryWf m = true) :
    memoryWf (m.filter p) = true := by
  induction m with
  | nil => rfl
  | cons c rest ih =>
    obtain ⟨h1, h2, h3⟩ := (memoryWf_cons c rest).mp h
    by_cases hp : p c = true
    · rw [List.filter_cons_of_pos hp, memoryWf_cons]
      exact ⟨h1, fun d hd => h2 d (List.mem_of_mem_filter hd), ih h3⟩
    · rw [List.filter_cons_of_neg (by simpa using hp)]
      exact ih h3

theorem mem_insertCell (m : Memory) (a : Nat) (b : Byte) (d : Host.Cell) (h : d ∈ insertCell m a b) :
    d = (a, b) ∨ d ∈ m := by
  induction m with
  | nil => simpa [insertCell] using h
  | cons c rest ih =>
    unfold insertCell at h
    split at h
    · simpa using h
    · rcases List.mem_cons.mp h with rfl | h
      · simp
      · rcases ih h with h | h <;> simp [h]

theorem memoryWf_insertCell (m : Memory) (a : Nat) (b : Byte) (hb : b ≠ unlistedByte) (hf : ∀ c ∈ m, c.1 ≠ a)
    (h : memoryWf m = true) : memoryWf (insertCell m a b) = true := by
  induction m with
  | nil => simp [insertCell, memoryWf_cons, hb, h]
  | cons c rest ih =>
    obtain ⟨h1, h2, h3⟩ := (memoryWf_cons c rest).mp h
    unfold insertCell
    split
    · next hlt =>
      rw [memoryWf_cons]
      refine ⟨hb, fun d hd => ?_, h⟩
      rcases List.mem_cons.mp hd with rfl | hd
      · exact hlt
      · exact lt_trans hlt (h2 d hd)
    · next hlt =>
      have hne : c.1 ≠ a := hf c (by simp)
      rw [memoryWf_cons]
      refine ⟨h1, fun d hd => ?_, ih (fun d hd => hf d (by simp [hd])) h3⟩
      rcases mem_insertCell rest a b d hd with rfl | hd
      · show c.1 < a
        omega
      · exact h2 d hd

theorem memoryWf_writeCell (m : Memory) (a : Nat) (b : Byte) (h : memoryWf m = true) :
    memoryWf (writeCell m a b) = true := by
  unfold writeCell
  split
  · exact memoryWf_filter _ m h
  · next hb => exact memoryWf_insertCell _ a b hb (dropCell_free m a) (memoryWf_filter _ m h)

theorem memoryWf_eraseCells (m : Memory) (first last : Nat) (h : memoryWf m = true) :
    memoryWf (eraseCells m first last) = true := memoryWf_filter _ m h

theorem memoryWf_patchCells (hw : Params) (target : Nat → Bool) (m : Memory) (cells : List Host.Cell)
    (h : memoryWf m = true) : memoryWf (patchCells hw target m cells) = true := by
  induction cells generalizing m with
  | nil => exact h
  | cons c rest ih =>
    have step : patchCells hw target m (c :: rest) =
        patchCells hw target (if target c.1 && inRegion hw c.1 then writeCell m c.1 c.2 else m) rest := rfl
    rw [step]
    refine ih _ ?_
    split
    · exact memoryWf_writeCell m _ _ h
    · exact h

theorem memoryWf_erasedSector (hw : Params) (n : Word) (m : Memory) (h : memoryWf m = true) :
    memoryWf (erasedSector hw n m) = true := by
  unfold erasedSector
  split
  · exact memoryWf_eraseCells m _ _ h
  · exact h

theorem memoryWf_programmedByte (hw : Params) (a : Word) (v : Byte) (m : Memory) (h : memoryWf m = true) :
    memoryWf (programmedByte hw a v m) = true := by
  unfold programmedByte
  split
  · exact memoryWf_writeCell m _ _ h
  · exact h

/-- Whatever an answered operation leaves is in canonical form. -/
theorem memoryWf_applyReply (r : CtlReply) (success : Memory) (target : Nat → Bool) (s : State)
    (h : memoryWf s.flash = true) (hs : memoryWf success = true) :
    memoryWf (applyReply r success target s).flash = true := by
  cases r with
  | reference =>
    show memoryWf (if s.ctlUnlocked then success else s.flash) = true
    split <;> assumption
  | scripted st flags cells => exact memoryWf_patchCells s.hw target s.flash cells h

end Sys2Proof.Machine
end

