-- ==== Sys2Proof/Laws/PerInstr.lean ====
section
/-! SUPPORT. The laws stated of every command, one lemma per constructor (LAWS.json). -/

/-- R70, R71: a command's transaction carries its code, and has the bytes of its format's fields: one code byte, four for an address or a name, two more for a length, and a WRITE's data. -/
def Sys2Proof.Laws.FormatLength.Statement (i : Sys2Proof.Instr) : Prop :=
  (Sys2Proof.encode i).head?.map Sys2Proof.opField = some i.opCode ∧
    (Sys2Proof.encode i).length =
      match i with
      | .resolve _ => 5
      | .name2num _ => 5
      | .erase _ => 5
      | .write _ _ data => 7 + data.length
      | .read _ _ => 7

theorem Sys2Proof.Laws.FormatLength.resolve (address : Sys2Proof.Word) :
    Sys2Proof.Laws.FormatLength.Statement (.resolve address) := ⟨rfl, rfl⟩

theorem Sys2Proof.Laws.FormatLength.name2num (name : Sys2Proof.Word) :
    Sys2Proof.Laws.FormatLength.Statement (.name2num name) := ⟨rfl, rfl⟩

theorem Sys2Proof.Laws.FormatLength.erase (address : Sys2Proof.Word) :
    Sys2Proof.Laws.FormatLength.Statement (.erase address) := ⟨rfl, rfl⟩

theorem Sys2Proof.Laws.FormatLength.write (address : Sys2Proof.Word) (length : Sys2Proof.Half)
    (data : List Sys2Proof.Byte) : Sys2Proof.Laws.FormatLength.Statement (.write address length data) := by
  refine ⟨rfl, ?_⟩
  simp [Sys2Proof.encode, Sys2Proof.encodeFields, Sys2Proof.bytes32, Sys2Proof.bytes16]
  omega

theorem Sys2Proof.Laws.FormatLength.read (address : Sys2Proof.Word) (length : Sys2Proof.Half) :
    Sys2Proof.Laws.FormatLength.Statement (.read address length) := ⟨rfl, rfl⟩
end

