-- ==== Sys2Proof/Laws/Reset.lean ====
section
/-! SUPPORT. The flash range of a command in progress, in the terms of R193, and a step that answers a reset. -/

namespace Sys2Proof.Machine

/-- A reset asked for under a legal configuration is answered, and the step does nothing else. -/
theorem step_of_reset (s : State) (found : Abandoned) (hl : s.hw.legal = true) (hr : s.resetReq = some found) :
    step s = .next (resetBlock found s) := by
  simp [step, oneStep, hl, hr]

/-- R193: an ERASE's range is the sector that `sel_r` selects. -/
theorem inCommandRange_erase (s : State) (n : Word) (x : Nat) (hs : EraseInProgress s.seq) (hn : s.selR = some n) :
    inCommandRange s x = inSector s.hw n x := by
  rcases hs with e | e | e | e <;> simp [inCommandRange, e, selVal_of_some s n hn]

/-- R193: a WRITE's range is its `len_r` addresses from `cur - idx` on, modulo 2^32. -/
theorem inCommandRange_write (s : State) (a : Word) (n i : Half) (x : Nat) (hs : WriteInProgress s.seq)
    (ha : s.cur = some a) (hn : s.lenR = some n) (hi : s.idx = some i) :
    inCommandRange s x = true ↔ ∃ k < n.toNat, x = (a - i.setWidth 32 + BitVec.ofNat 32 k).toNat := by
  have hlen := n.isLt
  have range : inCommandRange s x = true ↔
      x < 2 ^ 32 ∧ (BitVec.ofNat 32 x - (a - i.setWidth 32)).toNat < n.toNat := by
    rcases hs with e | e | e | e <;>
      simp [inCommandRange, e, curVal_of_some s a ha, lenVal_of_some s n hn, idxVal_of_some s i hi]
  rw [range]
  constructor
  · rintro ⟨hx, hk⟩
    refine ⟨_, hk, ?_⟩
    rw [BitVec.ofNat_toNat, BitVec.setWidth_eq, BitVec.add_comm, BitVec.sub_add_cancel]
    simp only [BitVec.toNat_ofNat]
    omega
  · rintro ⟨k, hk, rfl⟩
    refine ⟨BitVec.isLt _, ?_⟩
    rw [BitVec.ofNat_toNat, BitVec.setWidth_eq, BitVec.add_comm, BitVec.add_sub_cancel]
    simp only [BitVec.toNat_ofNat]
    omega

end Sys2Proof.Machine
end

