-- ==== Sys2Proof/Laws/Resolver.lean ====
section
/-! SUPPORT. Addresses in a legal configuration as natural numbers, the bank split of the resolver, and the rows of the sector table. -/

namespace Sys2Proof.Machine

/-- R10 in natural numbers: where a legal configuration's banks lie. -/
theorem legal_bounds (hw : Params) (h : hw.legal = true) :
    hw.flashStart = hw.bank0Start ∧ hw.bank1Start.toNat = hw.bank0Start.toNat + 0x100000 ∧
      hw.flashEnd.toNat = hw.bank0Start.toNat + 0x2FFFFF ∧ hw.bank0Start.toNat + 0x2FFFFF ≤ 0xFFFFFFFE := by
  simp only [Params.legal, Bool.and_eq_true, decide_eq_true_eq] at h
  obtain ⟨⟨⟨h1, h2⟩, h3⟩, h4⟩ := h
  exact ⟨h1, h2, by omega, by omega⟩

theorem inRegion_iff (hw : Params) (a : Nat) :
    inRegion hw a = true ↔ hw.flashStart.toNat ≤ a ∧ a ≤ hw.flashEnd.toNat := by
  simp [inRegion]

theorem rowHolds_iff (hw : Params) (a : Nat) (r : SectorRow) :
    rowHolds hw a r = true ↔ rowFirst hw r ≤ a ∧ a ≤ rowLast hw r := by
  simp [rowHolds]

theorem quarterOf_toNat (offset : Word) : (quarterOf offset).toNat = offset.toNat / 0x4000 := by
  rw [quarterOf, BitVec.toNat_udiv]
  rfl

theorem block128Of_toNat (offset : Word) : (block128Of offset).toNat = offset.toNat / 0x20000 := by
  rw [block128Of, BitVec.toNat_udiv]
  rfl

theorem block256Of_toNat (offset : Word) : (block256Of offset).toNat = offset.toNat / 0x40000 := by
  rw [block256Of, BitVec.toNat_udiv]
  rfl

/-- R102: an address of bank0 is resolved by its offset in bank0. -/
theorem resolve_in_bank0 (hw : Params) (h : hw.legal = true) (offset : Word) (ho : offset.toNat < 0x100000) :
    resolve hw (hw.bank0Start + offset) = resolveBank0 hw offset := by
  obtain ⟨h1, h2, h3, h4⟩ := legal_bounds hw h
  have hn : (hw.bank0Start + offset).toNat = hw.bank0Start.toNat + offset.toNat := by
    rw [BitVec.toNat_add]; omega
  have hlt : hw.bank0Start + offset < hw.bank1Start := by rw [BitVec.lt_def, hn]; omega
  have hr : ¬ (hw.bank0Start + offset < hw.flashStart ∨ hw.flashEnd < hw.bank0Start + offset) := by
    rw [h1, BitVec.lt_def, BitVec.lt_def, hn]; omega
  have hb : addrInBank1 hw (hw.bank0Start + offset) = false := by simp [addrInBank1, hlt]
  have hs : hw.bank0Start + offset - hw.bank0Start = offset := by rw [BitVec.add_comm, BitVec.add_sub_cancel]
  simp [resolve, hr, hb, bankOffset, hs]

/-- R107: an address of bank1 is resolved by its offset in bank1. -/
theorem resolve_in_bank1 (hw : Params) (h : hw.legal = true) (offset : Word) (ho : offset.toNat < 0x200000) :
    resolve hw (hw.bank1Start + offset) = resolveBank1 hw offset := by
  obtain ⟨h1, h2, h3, h4⟩ := legal_bounds hw h
  have hn : (hw.bank1Start + offset).toNat = hw.bank1Start.toNat + offset.toNat := by
    rw [BitVec.toNat_add]; omega
  have hlt : ¬ hw.bank1Start + offset < hw.bank1Start := by rw [BitVec.lt_def, hn]; omega
  have hr : ¬ (hw.bank1Start + offset < hw.flashStart ∨ hw.flashEnd < hw.bank1Start + offset) := by
    rw [h1, BitVec.lt_def, BitVec.lt_def, hn]; omega
  have hb : addrInBank1 hw (hw.bank1Start + offset) = true := by simp [addrInBank1, hlt]
  have hs : hw.bank1Start + offset - hw.bank1Start = offset := by rw [BitVec.add_comm, BitVec.add_sub_cancel]
  simp [resolve, hr, hb, bankOffset, hs]

/-- R101 through the region test. -/
theorem resolve_outside_region (hw : Params) (a : Word) (ha : inRegion hw a.toNat = false) :
    resolve hw a = invalidInfo := by
  have h : ¬ inRegion hw a.toNat = true := by simp [ha]
  rw [inRegion_iff] at h
  unfold resolve
  rw [if_pos]
  rw [BitVec.lt_def, BitVec.lt_def]
  omega

/-- R52, R79: a row's offsets lie in its bank. -/
theorem row_offsets_in_bank :
    ∀ r ∈ sectorTable, r.first ≤ r.last ∧ r.last.toNat < if r.inBank1 then 0x200000 else 0x100000 := by decide

/-- R79: two rows of one bank do not overlap. -/
theorem rows_apart : ∀ r ∈ sectorTable, ∀ r' ∈ sectorTable,
    r = r' ∨ (r.inBank1 = r'.inBank1 ∧ (r.last < r'.first ∨ r'.last < r.first)) ∨ r.inBank1 ≠ r'.inBank1 := by decide

/-- R79: a row's resolving range lies in the region. -/
theorem row_in_region (hw : Params) (h : hw.legal = true) (r : SectorRow) (hr : r ∈ sectorTable) (a : Nat)
    (ha : rowHolds hw a r = true) : inRegion hw a = true := by
  obtain ⟨g1, g2, g3, g4⟩ := legal_bounds hw h
  rw [rowHolds_iff] at ha
  simp only [rowFirst, rowLast, bankStart] at ha
  obtain ⟨k1, k2⟩ := row_offsets_in_bank r hr
  rw [inRegion_iff, g1]
  split at ha <;> simp_all <;> omega

/-- R118: at most one row matches an address. -/
theorem row_unique (hw : Params) (h : hw.legal = true) (r r' : SectorRow) (hr : r ∈ sectorTable)
    (hr' : r' ∈ sectorTable) (a : Nat) (ha : rowHolds hw a r = true) (ha' : rowHolds hw a r' = true) : r = r' := by
  obtain ⟨g1, g2, g3, g4⟩ := legal_bounds hw h
  rw [rowHolds_iff] at ha ha'
  simp only [rowFirst, rowLast, bankStart] at ha ha'
  obtain ⟨k1, k2⟩ := row_offsets_in_bank r hr
  obtain ⟨k1', k2'⟩ := row_offsets_in_bank r' hr'
  rcases rows_apart r hr r' hr' with e | ⟨e, e'⟩ | e
  · exact e
  · exfalso
    rw [e] at ha
    rw [BitVec.lt_def, BitVec.lt_def] at e'
    omega
  · exfalso
    cases hb : r.inBank1 <;> cases hb' : r'.inBank1 <;> simp_all <;> omega

end Sys2Proof.Machine
end

