-- ==== Sys2Proof/Laws/Run.lean ====
section
/-! SUPPORT. A run, one step at a time, and that it is the host's run of the machine. -/

namespace Sys2Proof.Machine

theorem runSteps_zero (s : State) : runSteps 0 s = .next s := rfl

theorem runSteps_next (k : Nat) (s t : State) (h : step s = .next t) : runSteps (k + 1) s = runSteps k t := by
  rw [runSteps, h]

/-- A run of `j + k` steps is a run of `k` steps from where `j` steps lead. -/
theorem runSteps_add (j k : Nat) (s t : State) (h : runSteps j s = .next t) :
    runSteps (j + k) s = runSteps k t := by
  induction j generalizing s with
  | zero =>
    cases h
    rw [Nat.zero_add]
  | succ j ih =>
    rw [Nat.add_right_comm, runSteps]
    rw [runSteps] at h
    cases hs : step s with
    | next u =>
      rw [hs] at h
      exact ih u h
    | fault why => simp [hs] at h
    | refused why => simp [hs] at h

theorem core_run_next (M : Host.Core) (k : Nat) (s t : M.State) (h : M.step s = .next t) :
    M.run (k + 1) s = M.run k t := by
  rw [Host.Core.run, h]

theorem core_run_fault (M : Host.Core) (k : Nat) (s : M.State) (why : M.Fault) (h : M.step s = .fault why) :
    M.run (k + 1) s = .fault why := by
  rw [Host.Core.run, h]

theorem core_run_refused (M : Host.Core) (k : Nat) (s : M.State) (why : M.Refusal) (h : M.step s = .refused why) :
    M.run (k + 1) s = .refused why := by
  rw [Host.Core.run, h]

theorem runSteps_eq_run (k : Nat) (s : State) : runSteps k s = Sys2Proof.core.run k s := by
  induction k generalizing s with
  | zero => rfl
  | succ k ih =>
    rw [runSteps]
    cases h : step s with
    | next t => exact (ih t).trans (core_run_next Sys2Proof.core k s t h).symm
    | fault why => exact (core_run_fault Sys2Proof.core k s why h).symm
    | refused why => exact (core_run_refused Sys2Proof.core k s why h).symm

end Sys2Proof.Machine
end

