-- ==== Sys2Proof/Tests/Slice0.lean ====
section
/-! SUPPORT. The model's own tests. Expected values come from spec/95_test_vectors.md and from the encodings of spec/30_encoding.md; each witness shows that the hypotheses of an obligation can be met, at the bounds of their ranges. -/

open Sys2Proof Sys2Proof.Machine

/-- The state a step answers with. -/
def nextOf : StepOutcome → Option State
  | .next s => some s
  | .fault _ => none
  | .refused _ => none

/-- The refusal a step answers with. -/
def refusalOf : StepOutcome → Option Refusal
  | .next _ => none
  | .fault _ => none
  | .refused why => some why

/-- The machine after reset, one transaction offered. -/
def offered (frame : List Byte) : State := { State.reset with offers := [frame] }

/-- An ERASE of the sector 0x0C in progress, the controller's coming answers as given. -/
def erasing (q : Seq) (replies : List CtlReply) : State :=
  { State.reset with seq := q, selR := some 0x0C, ctlUnlocked := true, ctlReplies := replies }

/-- A WRITE of two bytes to the last byte of bank0 and the first of bank1, `idx` done. -/
def writing (q : Seq) (address : Word) (index : Half) (replies : List CtlReply) : State :=
  { State.reset with
    seq := q
    cur := some address
    lenR := some 2
    idx := some index
    dbuf := some [0x12, 0x34]
    ctlUnlocked := true
    ctlReplies := replies }

/-- A READ of two bytes in progress. -/
def reading (index : Half) (done : List Byte) (replies : List MemReply) : State :=
  { State.reset with
    seq := .rdByte
    cur := some 0x082FFFFF
    lenR := some 2
    idx := some index
    obuf := some done
    memReplies := replies }

/-- No flag. -/
def noFlags : CtlFlags := ⟨false, false, false, false, false⟩

/-- A controller's answer with a status and no change of the flash. -/
def answer (st : Status) : CtlReply := .scripted st noFlags []

/-- What a reset finds of an abandoned command: locked, no flag, one byte changed. -/
def found : Abandoned := ⟨false, noFlags, [(0x08200000, 0x00)]⟩

/-- The default configuration with the other `B1S_BASE` (R14). -/
def corrected : Params := { defaultParams with b1sBase := .corrected }

/-- The highest legal configuration (R10). -/
def highest : Params :=
  ⟨0xFFCFFFFF, 0xFFFFFFFE, 0xFFCFFFFF, 0xFFDFFFFF, .asBuilt⟩

/-! WellFormed: what is refused (R73, R10) -/

theorem test_short_write_is_ill_formed : (Instr.write 0x08200000 3 [0x01, 0x02]).wf = false := by decide

theorem test_exact_write_is_well_formed : (Instr.write 0x08200000 2 [0x01, 0x02]).wf = true := by decide

theorem test_configurations_legal :
    defaultParams.legal = true ∧ corrected.legal = true ∧ highest.legal = true := by decide

theorem test_configuration_breaks_G1 : { defaultParams with flashStart := 0x08000001 }.legal = false := by decide

theorem test_configuration_breaks_G2 :
    (⟨0x08000000, 0x083FFFFF, 0x08000000, 0x08200000, .asBuilt⟩ : Params).legal = false := by decide

theorem test_configuration_breaks_G3 : { defaultParams with flashEnd := 0x082FFFFE }.legal = false := by decide

theorem test_configuration_ends_at_sentinel :
    (⟨0xFFD00000, 0xFFFFFFFF, 0xFFD00000, 0xFFE00000, .asBuilt⟩ : Params).legal = false := by decide

/-! Decode: transactions written out from R70 and R71, the programs of spec/95_test_vectors.md section 7 -/

theorem test_decode_resolve : decode [0x00, 0xFF, 0xFF, 0x00, 0x08] = .ok (.resolve 0x0800FFFF) := by rfl

theorem test_decode_name2num : decode [0x01, 0x05, 0x00, 0x00, 0x00] = .ok (.name2num 0x05) := by rfl

theorem test_decode_erase : decode [0x02, 0x34, 0x12, 0x20, 0x08] = .ok (.erase 0x08201234) := by rfl

theorem test_decode_write :
    decode [0x03, 0x00, 0x40, 0x00, 0x08, 0x04, 0x00, 0x01, 0x02, 0x03, 0x04] =
      .ok (.write 0x08004000 4 [0x01, 0x02, 0x03, 0x04]) := by rfl

theorem test_decode_read : decode [0x04, 0x00, 0x00, 0x20, 0x08, 0x04, 0x00] = .ok (.read 0x08200000 4) := by rfl

theorem test_decode_keeps_further_data :
    decode [0x03, 0x00, 0x00, 0x20, 0x08, 0x02, 0x00, 0x01, 0x02, 0x03] =
      .ok (.write 0x08200000 2 [0x01, 0x02, 0x03]) := by rfl

theorem test_decode_ignores_padding : decode [0xF9, 0x1B, 0x00, 0x00, 0x00] = .ok (.name2num 0x1B) := by rfl

theorem test_decode_refuses_by_name :
    decode [] = .error .empty ∧ decode [0x05] = .error (.reservedCode 5) ∧ decode [0x07, 0x00] = .error (.reservedCode 7) ∧
      decode [0x00, 0x01, 0x02, 0x03] = .error .truncated ∧
      decode [0x02, 0x01, 0x02, 0x03, 0x04, 0x05] = .error .surplus ∧
      decode [0x03, 0x00, 0x00, 0x20, 0x08, 0x03, 0x00, 0x01, 0x02] = .error .shortData :=
  ⟨rfl, rfl, rfl, rfl, rfl, rfl⟩

theorem test_table_words :
    decodeTableWord 8 0 = some (.resolve 0) ∧ decodeTableWord 8 1 = some (.name2num 0) ∧
      decodeTableWord 8 2 = some (.erase 0) ∧ decodeTableWord 8 3 = some (.write 0 0 []) ∧
      decodeTableWord 8 4 = some (.read 0 0) ∧ decodeTableWord 8 5 = none := by decide

theorem test_table_word_with_operand : decodeTableWord 40 0x0800400000 = some (.resolve 0x08004000) := by decide

/-! The first step after reset runs the placed command -/

theorem test_first_step_resolve :
    (nextOf (step (State.reset.withFetchWord 8 0))).map (·.history) =
      some [.cmd (.resolve 0), .rsp (.info invalidInfo)] := by decide

theorem test_first_step_name2num :
    (nextOf (step (State.reset.withFetchWord 8 1))).map (·.history) =
      some [.cmd (.name2num 0), .rsp (.number 0)] := by decide

theorem test_first_step_erase :
    (nextOf (step (State.reset.withFetchWord 8 2))).map (·.history) =
      some [.cmd (.erase 0), .halt .eraseBadAddr] := by decide

theorem test_first_step_write :
    (nextOf (step (State.reset.withFetchWord 8 3))).map (·.seq) = some .wrUnlock := by decide

theorem test_first_step_read :
    (nextOf (step (State.reset.withFetchWord 8 4))).map (·.history) =
      some [.cmd (.read 0 0), .rsp (.bytes [])] := by decide

/-! Vectors of spec/95_test_vectors.md -/

theorem test_V8_first_large_sector : resolve defaultParams 0x08020000 = ⟨0x5, 0x5, 0x20000, 0x08020000, 0x0803FFFF⟩ := by
  decide

theorem test_V13_as_built : resolve defaultParams 0x08100000 = ⟨0xC, 0x10, 0x4000, 0x08000000, 0x08003FFF⟩ := by decide

theorem test_V16_corrected : resolve corrected 0x0810FFFF = ⟨0xF, 0x13, 0x4000, 0x0810C000, 0x0810FFFF⟩ := by decide

theorem test_V18_merged : resolve defaultParams 0x0811FFFF = ⟨0x10, 0x14, 0x10000, 0x08110000, 0x0811FFFF⟩ := by decide

theorem test_V22_selector_drops : resolve defaultParams 0x08200000 = ⟨0x18, 0x0C, 0x40000, 0x08200000, 0x0823FFFF⟩ := by
  decide

theorem test_V27_past_the_end : resolve defaultParams 0x08300000 = invalidInfo := by decide

theorem test_V40_name_range :
    (nextOf (exec (.name2num 0x1C) State.reset)).map (·.haltCause) = some (some .nameRange) := by decide

theorem test_V43_last_name :
    (nextOf (exec (.name2num 0x1B) State.reset)).map (·.history) =
      some [.cmd (.name2num 0x1B), .rsp (.number 0x0F)] := by decide

theorem test_V52_as_built_does_not_reach_the_erase :
    (nextOf (exec (.erase 0x08104000) State.reset)).map (·.selR) = some (some 0x11) := by decide

theorem test_V58_busy_halts :
    (nextOf (step (erasing .erErase [answer .busy]))).map (fun t => (t.history, t.ctlUnlocked)) =
      some ([.erase 0x0C .busy, .halt .eraseFail], true) := by decide

theorem test_V76_address_wraps :
    (nextOf (step (writing .wrProg 0xFFFFFFFF 0 [answer .ready]))).map (·.cur) = some (some 0x00000000) := by decide

theorem test_V77_short_data_is_refused :
    refusalOf (step (offered (encode (.write 0x08200000 3 [0x01, 0x02])))) = some (.badCommand .shortData) := by decide

theorem test_V81_last_byte_answers :
    (nextOf (step (reading 1 [0x12] [.byte 0x80]))).map (·.history) =
      some [.memRd 0x082FFFFF 0x80, .rsp (.bytes [0x12, 0x80])] := by decide

/-! R67: a program over an erased byte, a program that can clear bits only, an erase -/

theorem test_program_clears_bits_only :
    readCell (programmedByte defaultParams 0x08000000 0x0F [(0x08000000, 0x3C)]) 0x08000000 = 0x0C := by decide

theorem test_erase_leaves_the_neighbour :
    erasedSector defaultParams 0x0C [(0x081FFFFF, 0xA5), (0x08200000, 0xA5), (0x0823FFFF, 0xA5), (0x08240000, 0xA5)] =
      [(0x081FFFFF, 0xA5), (0x08240000, 0xA5)] := by decide

/-! Witnesses: the hypotheses of the obligations -/

theorem test_witness_DecodeOfEncode :
    (Instr.write 0xFFFFFFFF 2 [0x00, 0xFF]).wf = true ∧ (Instr.write 0 0 []).wf = true ∧ (Instr.read 0 0xFFFF).wf = true := by
  decide

theorem test_witness_DecodedTransaction : ∃ frame i, decode frame = .ok i :=
  ⟨[0xF8, 0xFF, 0xFF, 0xFF, 0xFF], .resolve 0xFFFFFFFF, rfl⟩

theorem test_witness_ReservedCode :
    (Enabled (offered [0x05]) ∧ (offered [0x05]).seq = .idle ∧ (offered [0x05]).offers = [[0x05]] ∧ 5 ≤ (opField 0x05).toNat) ∧
      (Enabled (offered [0x07]) ∧ (offered [0x07]).seq = .idle ∧ (offered [0x07]).offers = [[0x07]] ∧
        5 ≤ (opField 0x07).toNat) := by
  simp only [Enabled]; decide

theorem test_witness_ShortWrite_short :
    ([] : List Byte).length < (1 : Half).toNat ∧ Enabled (offered (encode (.write 0 1 []))) ∧
      (offered (encode (.write 0 1 []))).seq = .idle ∧
      (offered (encode (.write 0 1 []))).offers = [encode (.write 0 1 [])] := by
  simp only [Enabled]; decide

theorem test_witness_ShortWrite_enough : State.reset.seq = .idle ∧ ([0x01] : List Byte).length = (1 : Half).toNat := by decide

theorem test_witness_StepRuns :
    Enabled (offered (encode (.erase 0x082FFFFF))) ∧ (offered (encode (.erase 0x082FFFFF))).seq = .idle ∧
      (offered (encode (.erase 0x082FFFFF))).offers = [encode (.erase 0x082FFFFF)] ∧
      decode (encode (.erase 0x082FFFFF)) = .ok (.erase 0x082FFFFF) :=
  ⟨⟨by decide, rfl⟩, rfl, rfl, rfl⟩

theorem test_witness_CommandAccepted_busy :
    (erasing .erLock [answer .ready]).seq ≠ .idle ∧ ∃ t, step (erasing .erLock [answer .ready]) = .next t :=
  ⟨by decide, _, rfl⟩

theorem test_witness_CommandAccepted_idle : ∃ t, exec (.name2num 0x1B) State.reset = .next t := ⟨_, rfl⟩

theorem test_witness_IdleWaits : Enabled State.reset ∧ State.reset.seq = .idle ∧ State.reset.offers = [] := by
  simp only [Enabled]; decide

theorem test_witness_IllegalConfiguration :
    (∃ hw : Params, hw.flashStart ≠ hw.bank0Start) ∧
      (∃ hw : Params, hw.bank1Start.toNat ≠ hw.bank0Start.toNat + 0x100000) ∧
      (∃ hw : Params, hw.flashEnd.toNat ≠ hw.bank1Start.toNat + 0x1FFFFF) ∧ (∃ hw : Params, hw.flashEnd = 0xFFFFFFFF) :=
  ⟨⟨{ defaultParams with flashStart := 0x07FFFFFF }, by decide⟩, ⟨{ defaultParams with bank1Start := 0x08100001 }, by decide⟩,
    ⟨{ defaultParams with flashEnd := 0x082FFFFE }, by decide⟩, ⟨⟨0xFFD00000, 0xFFFFFFFF, 0xFFD00000, 0xFFE00000, .asBuilt⟩, rfl⟩⟩

theorem test_witness_ResolveOutside :
    (0x07FFFFFF : Word) < defaultParams.flashStart ∧ defaultParams.flashEnd < (0x08300000 : Word) ∧
      highest.flashEnd < (0xFFFFFFFF : Word) ∧ highest.legal = true := by decide

theorem test_witness_ResolveSmall :
    defaultParams.legal = true ∧ corrected.legal = true ∧ (3 : Word) < 4 ∧ (0x3FFF : Word) < 0x4000 := by decide

theorem test_witness_ResolveMerged :
    highest.legal = true ∧ (0x10000 : Word) ≤ 0x10000 ∧ (0x1FFFF : Word) < 0x20000 ∧ (0x10000 : Word) ≤ 0x1FFFF := by decide

theorem test_witness_ResolveLarge :
    highest.legal = true ∧ (1 : Word) ≤ 1 ∧ (1 : Word) ≤ 7 ∧ (7 : Word) ≤ 7 ∧ (0x1FFFF : Word) < 0x20000 := by decide

theorem test_witness_ResolveExtraLarge :
    highest.legal = true ∧ (4 : Word) ≤ 4 ∧ (4 : Word) ≤ 7 ∧ (7 : Word) ≤ 7 ∧ (0x3FFFF : Word) < 0x40000 := by decide

/-- Both kinds of address of the statements over the region, and both values of `B1S_BASE` for the names 0xC to 0xF. -/
theorem test_witness_Region :
    inRegion defaultParams (0x08000000 : Word).toNat = true ∧ inRegion defaultParams (0x082FFFFF : Word).toNat = true ∧
      inRegion defaultParams (0x07FFFFFF : Word).toNat = false ∧ inRegion defaultParams (0x08300000 : Word).toNat = false ∧
      (defaultParams.b1sBase = .asBuilt ∧ 0xC ≤ (resolve defaultParams 0x08100000).sectorName ∧
        (resolve defaultParams 0x08100000).sectorName ≤ 0xF) ∧
      (corrected.b1sBase ≠ .asBuilt ∧ inRegion corrected (0x08100000 : Word).toNat = true) := by decide

/-- Consecutive names as-built: the pair (0xF, 0x10), and one that is adjacent. -/
theorem test_witness_Adjacent :
    (resolve defaultParams 0x08110000).sectorName = (resolve defaultParams 0x0810FFFF).sectorName + 1 ∧
      (resolve defaultParams 0x0810FFFF).sectorName = 0xF ∧
      (resolve defaultParams 0x0810C000).sectorName = (resolve defaultParams 0x0810BFFF).sectorName + 1 ∧
      (resolve defaultParams 0x0810BFFF).sectorName = 0xE ∧ (resolve defaultParams 0x0810BFFF).sectorName ≠ 0xB := by decide

theorem test_witness_NamesRise :
    defaultParams.flashStart ≤ (0x080FFFFF : Word) ∧ (0x080FFFFF : Word) ≤ 0x08100000 ∧
      (0x08100000 : Word) ≤ defaultParams.flashEnd ∧ (0x080FFFFF : Word) < defaultParams.bank1Start ∧
      defaultParams.bank1Start ≤ (0x08100000 : Word) ∧ (0x1B : Word) ≤ 0x1B := by decide

theorem test_witness_OneName :
    (resolve defaultParams 0x08010000).sectorName = (resolve defaultParams 0x0801FFFF).sectorName ∧
      (resolve defaultParams 0x0801FFFF).sectorName = 4 := by decide

theorem test_witness_Inverse : (0x1B : Word) ≤ 0x1B ∧ nameOfSelector 0x0C = some 0x18 ∧ nameOfSelector 0x1B = some 0x17 := by
  decide

/-- The accepting steps: RESOLVE and NAME2NUM need `IDLE` alone; ERASE in and outside the region, WRITE and READ at both ends. -/
theorem test_witness_Accepting :
    State.reset.seq = .idle ∧ State.reset.hw.legal = true ∧ inRegion State.reset.hw (0x082FFFFF : Word).toNat = true ∧
      inRegion State.reset.hw (0x08300000 : Word).toNat = false ∧ (2 : Half).toNat ≤ ([0x01, 0x02] : List Byte).length ∧
      (0 : Half).toNat ≤ ([] : List Byte).length ∧ (0xFFFF : Half) ≠ 0 := by decide

theorem test_witness_AcceptingFrame :
    (∃ t, exec (.resolve 0xFFFFFFFF) State.reset = .next t) ∧ (∃ t, exec (.name2num 0x1C) State.reset = .next t) ∧
      (∃ t, exec (.erase 0x08000000) State.reset = .next t) ∧ (∃ t, exec (.write 0 1 [0x01]) State.reset = .next t) ∧
      (∃ t, exec (.read 0 1) State.reset = .next t) ∧ (∃ t, exec (.read 0 0) State.reset = .next t) :=
  ⟨⟨_, rfl⟩, ⟨_, rfl⟩, ⟨_, rfl⟩, ⟨_, rfl⟩, ⟨_, rfl⟩, ⟨_, rfl⟩⟩

theorem test_witness_Unlock :
    (Enabled (erasing .erUnlock []) ∧ (erasing .erUnlock []).seq = .erUnlock) ∧
      (Enabled (writing .wrUnlock 0 0 [.reference]) ∧ (writing .wrUnlock 0 0 [.reference]).seq = .wrUnlock) := by
  simp only [Enabled]; decide

theorem test_witness_Clear :
    (Enabled (erasing .erClear [.reference]) ∧ (erasing .erClear [.reference]).ctlReplies = [.reference]) ∧
      (Enabled (writing .wrClear 0 0 [.reference]) ∧ (writing .wrClear 0 0 [.reference]).lenR = some 2 ∧
        (writing .wrClear 0 0 [.reference]).ctlReplies = [.reference]) ∧
      ({ writing .wrClear 0 0 [.reference] with lenR := some 0 }.lenR = some 0) := by
  simp only [Enabled]; decide

theorem test_witness_EraseStep :
    Enabled (erasing .erErase [.reference]) ∧ (erasing .erErase [.reference]).selR = some 0x0C ∧
      (erasing .erErase [.reference]).ctlReplies = [.reference] ∧
      replyStatus .reference (erasing .erErase [.reference]) = .ready ∧
      replyStatus (answer .busy) (erasing .erErase [answer .busy]) ≠ .ready := by
  simp only [Enabled]; decide

theorem test_witness_ProgramStep :
    Enabled (writing .wrProg 0x080FFFFF 0 [answer .ready]) ∧ (writing .wrProg 0x080FFFFF 0 [answer .ready]).seq = .wrProg ∧
      (writing .wrProg 0x080FFFFF 0 [answer .ready]).dbuf = some [0x12, 0x34] ∧ (0 : Half).toNat + 1 < (2 : Half).toNat ∧
      ¬ (1 : Half).toNat + 1 < (2 : Half).toNat ∧ (1 : Half).toNat < (2 : Half).toNat ∧
      ([0x12, 0x34] : List Byte)[(1 : Half).toNat]? = some 0x34 ∧
      replyStatus (answer .ready) (writing .wrProg 0x080FFFFF 0 [answer .ready]) = .ready ∧
      replyStatus (answer (.error 1)) (writing .wrProg 0x080FFFFF 1 [answer (.error 1)]) ≠ .ready := by
  simp only [Enabled]; decide

theorem test_witness_Lock :
    (Enabled (erasing .erLock [.reference]) ∧ (erasing .erLock [.reference]).seq = .erLock) ∧
      (Enabled (writing .wrLock 0 2 [.reference]) ∧ (writing .wrLock 0 2 [.reference]).seq = .wrLock) := by
  simp only [Enabled]; decide

theorem test_witness_ReadStep :
    (Enabled (reading 0 [] [.contents]) ∧ (reading 0 [] [.contents]).memReplies = [.contents] ∧
        (0 : Half).toNat + 1 < (2 : Half).toNat) ∧
      (Enabled (reading 1 [0x12] [.byte 0x80]) ∧ (reading 1 [0x12] [.byte 0x80]).obuf = some [0x12] ∧
        ¬ (1 : Half).toNat + 1 < (2 : Half).toNat ∧ (1 : Half).toNat < (2 : Half).toNat) := by
  simp only [Enabled]; decide

theorem test_witness_Unanswered :
    (Enabled (erasing .erErase []) ∧ Waiting (erasing .erErase [])) ∧ (Enabled (reading 0 [] []) ∧ Waiting (reading 0 [] [])) :=
  ⟨⟨⟨by decide, rfl⟩, .inl ⟨rfl, rfl⟩⟩, ⟨⟨by decide, rfl⟩, .inr ⟨rfl, rfl⟩⟩⟩

theorem test_witness_EraseRun :
    let s : State := { offered (encode (.erase 0x082FFFFF)) with
      ctlReplies := [.reference, .reference, .reference, .reference] }
    Enabled s ∧ s.seq = .idle ∧ inRegion s.hw (0x082FFFFF : Word).toNat = true ∧
      s.offers = [encode (.erase 0x082FFFFF)] ∧ AnswersReady .reference ∧ AnswersReady (answer .ready) :=
  ⟨⟨by decide, rfl⟩, rfl, by decide, rfl, .inl rfl, .inr ⟨_, _, rfl⟩⟩

theorem test_witness_EraseRunFails :
    let s : State := { offered (encode (.erase 0x08000000)) with ctlReplies := [.reference, .reference, answer .busy] }
    Enabled s ∧ s.seq = .idle ∧ inRegion s.hw (0x08000000 : Word).toNat = true ∧
      s.offers = [encode (.erase 0x08000000)] ∧ AnswersNonReady .busy (answer .busy) :=
  ⟨⟨by decide, rfl⟩, rfl, by decide, rfl, by decide, _, _, rfl⟩

theorem test_witness_WriteZero :
    let s : State := { offered (encode (.write 0xFFFFFFFF 0 [])) with ctlReplies := [.reference, .reference, .reference] }
    Enabled s ∧ s.seq = .idle ∧ s.offers = [encode (.write 0xFFFFFFFF 0 [])] ∧
      s.ctlReplies = [.reference, .reference, .reference] :=
  ⟨⟨by decide, rfl⟩, rfl, rfl, rfl⟩

theorem test_witness_WriteRun :
    let s : State := { offered (encode (.write 0xFFFFFFFF 1 [0xAB])) with
      ctlReplies := [.reference, .reference, .reference, .reference] }
    Enabled s ∧ s.seq = .idle ∧ (1 : Half).toNat ≤ ([0xAB] : List Byte).length ∧
      s.offers = [encode (.write 0xFFFFFFFF 1 [0xAB])] ∧
      s.ctlReplies = .reference :: .reference :: ([.reference] ++ .reference :: []) ∧
      ([.reference] : List CtlReply).length = (1 : Half).toNat ∧ ∀ r ∈ [CtlReply.reference], AnswersReady r :=
  ⟨⟨by decide, rfl⟩, rfl, by decide, rfl, rfl, rfl, fun _ h => .inl (List.mem_singleton.mp h)⟩

/-- Both calls answered by the reference controller, at the last byte of bank0 and the first of bank1. -/
theorem test_witness_WriteRun_in_region :
    let s : State := { offered (encode (.write 0x080FFFFF 2 [0xAB, 0xCD])) with
      ctlReplies := List.replicate 5 .reference }
    Enabled s ∧ s.seq = .idle ∧ (2 : Half).toNat ≤ ([0xAB, 0xCD] : List Byte).length ∧
      s.offers = [encode (.write 0x080FFFFF 2 [0xAB, 0xCD])] ∧
      s.ctlReplies = .reference :: .reference :: (List.replicate 2 .reference ++ .reference :: []) ∧
      (List.replicate 2 CtlReply.reference)[1]? = some .reference ∧ ([0xAB, 0xCD] : List Byte)[1]? = some 0xCD ∧
      (∀ r ∈ List.replicate 2 CtlReply.reference, AnswersReady r) ∧
      inRegion s.hw (0x080FFFFF + BitVec.ofNat 32 0 : Word).toNat = true ∧
      inRegion s.hw (0x080FFFFF + BitVec.ofNat 32 1 : Word).toNat = true :=
  ⟨⟨by decide, rfl⟩, rfl, by decide, rfl, rfl, rfl, rfl, fun _ h => .inl (List.eq_of_mem_replicate h), by decide, by decide⟩

/-- The first byte programmed by the reference controller, the second one's program failed. -/
theorem test_witness_WriteRunFails_in_region :
    let s : State := { offered (encode (.write 0x08004000 2 [0x01, 0x02])) with
      ctlReplies := [.reference, .reference, .reference, answer .busy] }
    Enabled s ∧ s.seq = .idle ∧ (2 : Half).toNat ≤ ([0x01, 0x02] : List Byte).length ∧
      s.offers = [encode (.write 0x08004000 2 [0x01, 0x02])] ∧
      s.ctlReplies = .reference :: .reference :: ([.reference] ++ answer .busy :: []) ∧
      ([.reference] : List CtlReply).length < (2 : Half).toNat ∧ (∀ r ∈ [CtlReply.reference], AnswersReady r) ∧
      AnswersNonReady .busy (answer .busy) ∧ ([0x01, 0x02] : List Byte)[1]? = some 0x02 ∧
      [CtlReply.reference][0]? = some .reference ∧ ([0x01, 0x02] : List Byte)[0]? = some 0x01 ∧
      inRegion s.hw (0x08004000 + BitVec.ofNat 32 0 : Word).toNat = true :=
  ⟨⟨by decide, rfl⟩, rfl, by decide, rfl, rfl, by decide, fun _ h => .inl (List.mem_singleton.mp h),
    ⟨by decide, _, _, rfl⟩, rfl, rfl, rfl, by decide⟩

theorem test_witness_WriteRunFails :
    let s : State := { offered (encode (.write 0x08004000 1 [0x01])) with
      ctlReplies := [.reference, .reference, answer (.error 7)] }
    Enabled s ∧ s.seq = .idle ∧ (1 : Half).toNat ≤ ([0x01] : List Byte).length ∧
      s.offers = [encode (.write 0x08004000 1 [0x01])] ∧
      s.ctlReplies = .reference :: .reference :: ([] ++ answer (.error 7) :: []) ∧
      ([] : List CtlReply).length < (1 : Half).toNat ∧ (∀ r ∈ ([] : List CtlReply), AnswersReady r) ∧
      AnswersNonReady (.error 7) (answer (.error 7)) ∧ ([0x01] : List Byte)[([] : List CtlReply).length]? = some 0x01 :=
  ⟨⟨by decide, rfl⟩, rfl, by decide, rfl, rfl, by decide, by simp, ⟨by decide, _, _, rfl⟩, rfl⟩

theorem test_witness_ReadRun :
    let s : State := { offered (encode (.read 0xFFFFFFFF 2)) with memReplies := [.contents, .byte 0x80] }
    Enabled s ∧ s.seq = .idle ∧ s.offers = [encode (.read 0xFFFFFFFF 2)] ∧
      s.memReplies = [.contents, .byte 0x80] ++ [] ∧ [MemReply.contents, .byte 0x80].length = (2 : Half).toNat :=
  ⟨⟨by decide, rfl⟩, rfl, rfl, rfl, rfl⟩

theorem test_witness_ReadRun_zero :
    let s : State := offered (encode (.read 0 0))
    Enabled s ∧ s.seq = .idle ∧ s.offers = [encode (.read 0 0)] ∧ s.memReplies = [] ++ [] ∧
      ([] : List MemReply).length = (0 : Half).toNat :=
  ⟨⟨by decide, rfl⟩, rfl, rfl, rfl, rfl⟩

theorem test_witness_HaltEntry :
    (erasing .erErase [answer .busy]).seq ≠ .halted ∧
      ∃ t, step (erasing .erErase [answer .busy]) = .next t ∧ t.seq = .halted :=
  ⟨by decide, _, rfl, rfl⟩

theorem test_witness_HaltEntry_in_acceptance :
    (offered (encode (.name2num 0x1C))).seq ≠ .halted ∧
      ∃ t, step (offered (encode (.name2num 0x1C))) = .next t ∧ t.seq = .halted :=
  ⟨by decide, _, rfl, rfl⟩

theorem test_witness_Halted :
    let s : State := { erasing .halted [] with haltCause := some .eraseFail }
    Enabled s ∧ FailedEnd s ∧ ∃ t, step { s with resetReq := some found } = .next t :=
  ⟨⟨by decide, rfl⟩, rfl, _, rfl⟩

theorem test_witness_EachHaltCause :
    Enabled (writing .wrProg 0 1 [answer .busy]) ∧ (writing .wrProg 0 1 [answer .busy]).seq ≠ .idle ∧
      (∃ t, step (writing .wrProg 0 1 [answer .busy]) = .next t) ∧ State.reset.hw.legal = true ∧
      ∃ t, exec (.erase 0x08300000) State.reset = .next t :=
  ⟨⟨by decide, rfl⟩, by decide, ⟨_, rfl⟩, by decide, _, rfl⟩

/-- U20: a reset in mid-bracket, no unlock or lock in flight, may leave the controller locked. -/
theorem test_reset_in_mid_bracket_leaves_any_lock_state :
    (abandonCall found (erasing .erErase [])).ctlUnlocked = false ∧
      (abandonCall { found with unlocked := true } (erasing .erErase [])).ctlUnlocked = true := by decide

/-- R192: a reset clears no flag: with an unlock in flight every flag stays. -/
theorem test_reset_with_unlock_in_flight_keeps_flags :
    (abandonCall found { erasing .erUnlock [] with ctlFlags := { noFlags with endOfOperation := true } }).ctlFlags =
      { noFlags with endOfOperation := true } := by decide

/-- A reset asked for in `IDLE`, in mid-ERASE, in `HALTED`, with an unlock in flight and in a READ. -/
theorem test_witness_Reset :
    let idle : State := { State.reset with resetReq := some found }
    let busy : State := { erasing .erErase [] with resetReq := some found }
    let halted : State := { erasing .halted [] with haltCause := some .eraseFail, resetReq := some found }
    let opening : State := { erasing .erUnlock [] with resetReq := some found }
    let readingOn : State := { reading 1 [0x12] [] with resetReq := some found }
    (∃ t, step idle = .next t) ∧ (∃ t, step busy = .next t) ∧ (∃ t, step halted = .next t) ∧
      (∃ t, step opening = .next t) ∧ (∃ t, step readingOn = .next t) ∧ callInFlight busy.seq = true ∧ halted.hw.legal = true :=
  ⟨⟨_, rfl⟩, ⟨_, rfl⟩, ⟨_, rfl⟩, ⟨_, rfl⟩, ⟨_, rfl⟩, rfl, by decide⟩

/-- An ERASE of the sector 0x0C: its last byte is in the range, the next byte in no row with its number. -/
theorem test_witness_Reset_in_erase :
    let s : State := { erasing .erErase [] with resetReq := some found }
    EraseInProgress s.seq ∧ s.selR = some 0x0C ∧ (∃ t, step s = .next t) ∧ s.hw.legal = true ∧
      (∃ r ∈ sectorTable, (0x0C : Word) = ctlIdx r.selector ∧ rowHolds s.hw 0x0823FFFF r = true) ∧
      ∀ r ∈ sectorTable, (0x0C : Word) = ctlIdx r.selector → rowHolds s.hw 0x08240000 r = false :=
  ⟨.inr (.inr (.inl rfl)), rfl, ⟨_, rfl⟩, by decide, by decide, by decide⟩

/-- A WRITE of two bytes, one done: its range is the byte before `cur` and the byte at it. -/
theorem test_witness_Reset_in_write :
    let s : State := { writing .wrProg 0x08100000 1 [] with resetReq := some found }
    WriteInProgress s.seq ∧ s.cur = some 0x08100000 ∧ s.lenR = some 2 ∧ s.idx = some 1 ∧ (∃ t, step s = .next t) ∧
      s.hw.legal = true ∧ 0x080FFFFF = ((0x08100000 : Word) - (1 : Half).setWidth 32 + BitVec.ofNat 32 0).toNat ∧
      0x08100000 = ((0x08100000 : Word) - (1 : Half).setWidth 32 + BitVec.ofNat 32 1).toNat ∧
      inRegion s.hw 0x080FFFFF = true ∧ inRegion s.hw 0x08100000 = true ∧
      ∀ k < (2 : Half).toNat, 0x08100001 ≠ ((0x08100000 : Word) - (1 : Half).setWidth 32 + BitVec.ofNat 32 k).toNat :=
  ⟨.inr (.inr (.inl rfl)), rfl, rfl, rfl, ⟨_, rfl⟩, by decide, by decide, by decide, by decide, by decide, by decide⟩

theorem test_witness_LatchInv_erase :
    LatchInv (erasing .erErase [.reference]) ∧ EraseEventsInv (erasing .erErase [.reference]) ∧
      ∃ t, step (erasing .erErase [.reference]) = .next t :=
  ⟨⟨⟨⟨0x0C, rfl, by decide⟩, rfl, rfl, rfl, rfl, rfl⟩, rfl⟩, (fun _ _ h => by cases h), _, rfl⟩

theorem test_witness_LatchInv_write :
    LatchInv (writing .wrProg 0x080FFFFF 1 [answer .ready]) ∧
      ∃ t, step (writing .wrProg 0x080FFFFF 1 [answer .ready]) = .next t :=
  ⟨⟨⟨⟨_, _, _, _, rfl, rfl, rfl, rfl, rfl, by decide⟩, rfl, rfl⟩, rfl⟩, _, rfl⟩

theorem test_witness_LatchInv_read :
    LatchInv (reading 1 [0x12] [.byte 0x80]) ∧ ∃ t, step (reading 1 [0x12] [.byte 0x80]) = .next t :=
  ⟨⟨⟨⟨_, _, _, _, rfl, rfl, rfl, rfl, rfl, by decide⟩, rfl, rfl⟩, rfl⟩, _, rfl⟩

theorem test_witness_BracketInv :
    let s : State := { erasing .erErase [answer .busy] with history := [.unlock, .clearFlags flagMask] }
    BracketInv s ∧ s.resetReq = none ∧ ∃ t, step s = .next t :=
  ⟨⟨by decide, by decide⟩, rfl, _, rfl⟩

theorem test_witness_MemoryInv :
    let s : State := { erasing .erErase [.reference] with flash := [(0x081FFFFF, 0x00), (0x08200000, 0x00)] }
    MemoryInv s ∧ ∃ t, step s = .next t :=
  ⟨⟨by decide, by decide⟩, _, rfl⟩

theorem test_witness_HistoryGrows_SequencerMoves :
    (reading 1 [0x12] [.contents]).resetReq = none ∧ (∃ t, step (reading 1 [0x12] [.contents]) = .next t) ∧
      ∃ t, exec (.read 0 1) State.reset = .next t :=
  ⟨rfl, ⟨_, rfl⟩, _, rfl⟩

theorem test_witness_FlashChanges :
    (erasing .erErase [.scripted .busy noFlags [(0x0823FFFF, 0x00)]]).resetReq = none ∧
      ∃ t, step (erasing .erErase [.scripted .busy noFlags [(0x0823FFFF, 0x00)]]) = .next t ∧
        readCell t.flash 0x0823FFFF ≠ readCell State.reset.flash 0x0823FFFF :=
  ⟨rfl, _, rfl, by decide⟩

theorem test_witness_Reference :
    State.reset.ctlUnlocked = false ∧ (erasing .erErase []).ctlUnlocked = true ∧
      (∃ r ∈ sectorTable, (0x0F : Word) = ctlIdx r.selector) ∧ inRegion defaultParams (0x082FFFFF : Word).toNat = true :=
  ⟨rfl, rfl, ⟨⟨0x1B, 0x0F, 0x40000, true, 0x1C0000, 0x1FFFFF, false⟩, by decide, rfl⟩, by decide⟩
end

section
/-! SUPPORT. What one command's acceptance and one chain step do to the parameters, the history, the lock state and the flash. -/

namespace Sys2Proof.Machine

/-! The parameters and the history -/

/-- R27, R34: a command's acceptance writes no parameter and appends to the history. -/
theorem exec_grows_history (i : Instr) (s t : State) (h : exec i s = .next t) :
    t.hw = s.hw ∧ s.history <+: t.history := by
  cases i with
  | resolve a =>
    obtain ⟨-, rfl⟩ := execResolve_next a s t h
    simp
  | name2num a => obtain ⟨-, ⟨k, -, rfl⟩ | ⟨-, rfl⟩⟩ := execName2num_next a s t h <;> simp
  | erase a => obtain ⟨-, ⟨-, rfl⟩ | ⟨-, rfl⟩⟩ := execErase_next a s t h <;> simp
  | write a n d =>
    obtain ⟨-, -, rfl⟩ := execWrite_next a n d s t h
    simp
  | read a n => obtain ⟨-, ⟨-, rfl⟩ | ⟨-, rfl⟩⟩ := execRead_next a n s t h <;> simp

/-- R27, R34: a chain step writes no parameter and appends to the history. -/
theorem chainStep_grows_history (s t : State) (hs : s.seq ≠ .idle) (h : chainStep s = .next t) :
    t.hw = s.hw ∧ s.history <+: t.history := by
  rcases chainStep_next s t hs h with rfl |
    ⟨r, rest, -, ⟨-, rfl⟩ | ⟨-, rfl⟩ | ⟨-, -, rfl⟩ | ⟨-, -, rfl⟩ | ⟨-, rfl⟩ | ⟨-, rfl⟩ | ⟨-, rfl⟩ | ⟨-, -, rfl⟩ |
      ⟨-, -, rfl⟩ | ⟨-, rfl⟩⟩ |
    ⟨r, rest, -, -, ⟨-, rfl⟩ | ⟨-, rfl⟩⟩ <;> simp

/-! The flash and the lock state -/

theorem readCell_erasedSector_other (hw : Params) (n : Word) (m : Memory) (x : Nat) (h : inSector hw n x = false) :
    readCell (erasedSector hw n m) x = readCell m x := by
  unfold inSector at h
  unfold erasedSector
  cases hr : rowOfNumber n with
  | none => rfl
  | some row =>
    rw [hr] at h
    have : ¬ rowHolds hw x row = true := by simp [h]
    rw [rowHolds_iff] at this
    exact (readCell_eraseCells m _ _ x).trans (if_neg this)

theorem readCell_programmedByte_other (hw : Params) (a : Word) (v : Byte) (m : Memory) (x : Nat) (h : x ≠ a.toNat) :
    readCell (programmedByte hw a v m) x = readCell m x := by
  unfold programmedByte
  split
  · rw [readCell_writeCell, if_neg h]
  · rfl

/-- An answered operation keeps a byte outside its target that a successful one keeps. -/
theorem readCell_applyReply_other (r : CtlReply) (success : Memory) (target : Nat → Bool) (s : State) (x : Nat)
    (ht : target x = false) (hs : readCell success x = readCell s.flash x) :
    readCell (applyReply r success target s).flash x = readCell s.flash x := by
  cases r with
  | reference =>
    show readCell (if s.ctlUnlocked then success else s.flash) x = _
    split
    · exact hs
    · rfl
  | scripted st flags cells => exact readCell_patchCells_other s.hw target s.flash cells x ht

/-- R53, R56: an erase changes no byte outside its sector. -/
theorem readCell_ctlErase_other (n : Word) (r : CtlReply) (s : State) (x : Nat) (h : inSector s.hw n x = false) :
    readCell (ctlErase n r s).flash x = readCell s.flash x :=
  readCell_applyReply_other r _ _ s x h (readCell_erasedSector_other s.hw n s.flash x h)

/-- R56: a program changes no byte but its own. -/
theorem readCell_ctlProgram_other (a : Word) (v : Byte) (r : CtlReply) (s : State) (x : Nat) (h : x ≠ a.toNat) :
    readCell (ctlProgram a v r s).flash x = readCell s.flash x :=
  readCell_applyReply_other r _ _ s x (decide_eq_false h) (readCell_programmedByte_other s.hw a v s.flash x h)

/-! What an operation leaves does not depend on the answers still to come. -/

@[simp] theorem ctlErase_flash_setCtlReplies (n : Word) (r : CtlReply) (rest : List CtlReply) (s : State) :
    (ctlErase n r (setCtlReplies rest s)).flash = (ctlErase n r s).flash := by cases r <;> rfl
@[simp] theorem ctlErase_ctlFlags_setCtlReplies (n : Word) (r : CtlReply) (rest : List CtlReply) (s : State) :
    (ctlErase n r (setCtlReplies rest s)).ctlFlags = (ctlErase n r s).ctlFlags := by cases r <;> rfl
@[simp] theorem ctlProgram_flash_setCtlReplies (a : Word) (v : Byte) (r : CtlReply) (rest : List CtlReply) (s : State) :
    (ctlProgram a v r (setCtlReplies rest s)).flash = (ctlProgram a v r s).flash := by cases r <;> rfl
@[simp] theorem ctlProgram_ctlFlags_setCtlReplies (a : Word) (v : Byte) (r : CtlReply) (rest : List CtlReply)
    (s : State) : (ctlProgram a v r (setCtlReplies rest s)).ctlFlags = (ctlProgram a v r s).ctlFlags := by
  cases r <;> rfl

/-- R144: whatever its status, an answered erase leaves the flash and the flags as the call does. -/
theorem stepErErase_effect (s t : State) (r : CtlReply) (rest : List CtlReply) (hr : s.ctlReplies = r :: rest)
    (h : stepErErase s = .next t) :
    t.flash = (ctlErase (selVal s) r s).flash ∧ t.ctlFlags = (ctlErase (selVal s) r s).ctlFlags := by
  by_cases hy : replyStatus r s = .ready
  · rw [stepErErase_ready s r rest hr hy] at h
    cases h
    simp
  · rw [stepErErase_failed s r rest hr hy] at h
    cases h
    simp

/-- R154: whatever its status, an answered program leaves the flash and the flags as the call does. -/
theorem stepWrProg_effect (s t : State) (r : CtlReply) (rest : List CtlReply) (hr : s.ctlReplies = r :: rest)
    (h : stepWrProg s = .next t) :
    t.flash = (ctlProgram (curVal s) (dataByte s) r s).flash ∧
      t.ctlFlags = (ctlProgram (curVal s) (dataByte s) r s).ctlFlags := by
  by_cases hy : replyStatus r s = .ready
  · rw [stepWrProg_ready s r rest hr hy] at h
    cases h
    simp
  · rw [stepWrProg_failed s r rest hr hy] at h
    cases h
    simp

/-- R56: a chain step leaves the flash as it was, or as its erase or its program leaves it. -/
theorem chainStep_flash_cases (s t : State) (hs : s.seq ≠ .idle) (h : chainStep s = .next t) :
    t.flash = s.flash ∨ (s.seq = .erErase ∧ ∃ r, t.flash = (ctlErase (selVal s) r s).flash) ∨
      (s.seq = .wrProg ∧ ∃ r, t.flash = (ctlProgram (curVal s) (dataByte s) r s).flash) := by
  rcases chainStep_next s t hs h with rfl |
    ⟨r, rest, -, ⟨-, rfl⟩ | ⟨-, rfl⟩ | ⟨e, -, rfl⟩ | ⟨e, -, rfl⟩ | ⟨-, rfl⟩ | ⟨-, rfl⟩ | ⟨-, rfl⟩ | ⟨e, -, rfl⟩ |
      ⟨e, -, rfl⟩ | ⟨-, rfl⟩⟩ |
    ⟨r, rest, -, -, ⟨-, rfl⟩ | ⟨-, rfl⟩⟩
  any_goals exact .inl rfl
  · exact .inr (.inl ⟨e, r, by simp⟩)
  · exact .inr (.inl ⟨e, r, by simp⟩)
  · exact .inr (.inr ⟨e, r, by simp⟩)
  · exact .inr (.inr ⟨e, r, by simp⟩)

/-- R56: a byte that a chain step changes is one its erase or its program may change. -/
theorem chainStep_changed_byte (s t : State) (hs : s.seq ≠ .idle) (h : chainStep s = .next t) (x : Nat)
    (hx : readCell t.flash x ≠ readCell s.flash x) :
    (s.seq = .erErase ∧ inSector s.hw (selVal s) x = true) ∨ (s.seq = .wrProg ∧ x = (curVal s).toNat) := by
  rcases chainStep_flash_cases s t hs h with hf | ⟨e, r, hf⟩ | ⟨e, r, hf⟩
  · exact absurd (by rw [hf]) hx
  · rw [hf] at hx
    exact .inl ⟨e, by_contra fun hn => hx (readCell_ctlErase_other _ r s x (by simpa using hn))⟩
  · rw [hf] at hx
    exact .inr ⟨e, by_contra fun hn => hx (readCell_ctlProgram_other _ _ r s x hn)⟩

/-- R32: a chain step changes the lock state only where it unlocks or locks. -/
theorem chainStep_changed_lock (s t : State) (hs : s.seq ≠ .idle) (h : chainStep s = .next t)
    (hu : t.ctlUnlocked ≠ s.ctlUnlocked) : lockCallInFlight s.seq = true := by
  rcases chainStep_next s t hs h with rfl |
    ⟨r, rest, -, ⟨e, rfl⟩ | ⟨e, rfl⟩ | ⟨e, -, rfl⟩ | ⟨e, -, rfl⟩ | ⟨e, rfl⟩ | ⟨e, rfl⟩ | ⟨e, rfl⟩ | ⟨e, -, rfl⟩ |
      ⟨e, -, rfl⟩ | ⟨e, rfl⟩⟩ |
    ⟨r, rest, -, e, ⟨-, rfl⟩ | ⟨-, rfl⟩⟩
  · exact absurd rfl hu
  all_goals simp [e, lockCallInFlight] at hu ⊢

end Sys2Proof.Machine
end

section
/-! SUPPORT. The number a resolved address reports is that of one of the 28 sectors (R80). -/

namespace Sys2Proof.Machine

/-- R78, R79: the 28 selectors are the numbers below 28. -/
theorem isSectorNumber_ctlIdx (k : Selector) (h : k.toNat < 28) : isSectorNumber (ctlIdx k) = true := by
  revert k
  decide

theorem isSectorNumber_slot (v : Word) (h : v.toNat < 28) : isSectorNumber (ctlIdx (selectorOfSlot v)) = true := by
  refine isSectorNumber_ctlIdx _ ?_
  rw [selectorOfSlot, BitVec.toNat_setWidth]
  omega

theorem isSectorNumber_resolveBank0 (hw : Params) (offset : Word) (h : offset.toNat < 0x100000) :
    isSectorNumber (resolveBank0 hw offset).sectorNumber = true := by
  have hblock : (block128Of offset).toNat < 8 := by rw [block128Of_toNat]; omega
  unfold resolveBank0
  dsimp only
  split
  · next hq => exact isSectorNumber_slot _ (by bv_omega)
  · split
    · exact isSectorNumber_ctlIdx 4 (by decide)
    · exact isSectorNumber_slot _ (by bv_omega)

theorem isSectorNumber_resolveBank1 (hw : Params) (offset : Word) (h : offset.toNat < 0x200000) :
    isSectorNumber (resolveBank1 hw offset).sectorNumber = true := by
  unfold resolveBank1
  dsimp only
  split
  · next hq => exact isSectorNumber_slot _ (by bv_omega)
  · split
    · exact isSectorNumber_ctlIdx 0x14 (by decide)
    · split
      · next hq =>
        have hquarter : (quarterOf offset).toNat < 64 := hq
        have hblock : (block128Of offset).toNat < 8 := by
          rw [quarterOf_toNat] at hquarter
          rw [block128Of_toNat]
          omega
        exact isSectorNumber_slot _ (by bv_omega)
      · have hblock : (block256Of offset).toNat < 8 := by rw [block256Of_toNat]; omega
        exact isSectorNumber_slot _ (by bv_omega)

/-- R80: an address that resolves at all resolves to the number of one of the 28 sectors. -/
theorem isSectorNumber_resolve (hw : Params) (h : hw.legal = true) (a : Word)
    (ha : (resolve hw a).sectorName ≠ invalidName) : isSectorNumber (resolve hw a).sectorNumber = true := by
  obtain ⟨g1, g2, g3, g4⟩ := legal_bounds hw h
  have hr : inRegion hw a.toNat = true := by
    by_contra hn
    exact ha (by rw [resolve_outside_region hw a (by simpa using hn)]; rfl)
  rw [inRegion_iff, g1, g3] at hr
  by_cases hb : a < hw.bank1Start
  · rw [BitVec.lt_def, g2] at hb
    have e : a = hw.bank0Start + (a - hw.bank0Start) := by
      rw [BitVec.add_comm, BitVec.sub_add_cancel]
    have ho : (a - hw.bank0Start).toNat < 0x100000 := by
      rw [BitVec.toNat_sub]; omega
    rw [e, resolve_in_bank0 hw h _ ho]
    exact isSectorNumber_resolveBank0 hw _ ho
  · rw [BitVec.lt_def, g2] at hb
    have e : a = hw.bank1Start + (a - hw.bank1Start) := by
      rw [BitVec.add_comm, BitVec.sub_add_cancel]
    have ho : (a - hw.bank1Start).toNat < 0x200000 := by
      rw [BitVec.toNat_sub]; omega
    rw [e, resolve_in_bank1 hw h _ ho]
    exact isSectorNumber_resolveBank1 hw _ ho

end Sys2Proof.Machine
end

section
/-! SUPPORT. The latch invariant, read off the sequencer's state, and kept by each kind of step. -/

namespace Sys2Proof.Machine

/-! What the latch invariant says in each state -/

theorem latchInv_idle (s : State) (e : s.seq = .idle) : LatchInv s ↔ LatchesEmpty s ∧ s.haltCause = none := by
  simp [LatchInv, e]

theorem latchInv_erase (s : State) (e : EraseInProgress s.seq) :
    LatchInv s ↔ EraseLatches s ∧ s.haltCause = none := by
  rcases e with e | e | e | e <;> simp [LatchInv, e]

theorem latchInv_beforeFirstByte (s : State) (e : s.seq = .wrUnlock ∨ s.seq = .wrClear) :
    LatchInv s ↔ WriteLatches (fun i _ => i = 0) s ∧ s.haltCause = none := by
  rcases e with e | e <;> simp [LatchInv, e]

theorem latchInv_wrProg (s : State) (e : s.seq = .wrProg) :
    LatchInv s ↔ WriteLatches (fun i n => i < n) s ∧ s.haltCause = none := by
  simp [LatchInv, e]

theorem latchInv_wrLock (s : State) (e : s.seq = .wrLock) :
    LatchInv s ↔ WriteLatches (fun i n => i = n) s ∧ s.haltCause = none := by
  simp [LatchInv, e]

theorem latchInv_rdByte (s : State) (e : s.seq = .rdByte) : LatchInv s ↔ ReadLatches s ∧ s.haltCause = none := by
  simp [LatchInv, e]

/-! Acceptance -/

/-- A command accepted in `IDLE` loads just the latches of the chain it enters. -/
theorem exec_keeps_latchInv (i : Instr) (s t : State) (hl : s.hw.legal = true) (hi : LatchInv s)
    (h : exec i s = .next t) : LatchInv t := by
  obtain ⟨he, hc⟩ := (latchInv_idle s (exec_next_idle i s t h)).mp hi
  obtain ⟨hcur, hlen, hidx, hsel, hdbuf, hobuf⟩ := id he
  cases i with
  | resolve a =>
    obtain ⟨-, rfl⟩ := execResolve_next a s t h
    exact ⟨he, hc⟩
  | name2num a =>
    obtain ⟨-, ⟨k, -, rfl⟩ | ⟨-, rfl⟩⟩ := execName2num_next a s t h
    · exact ⟨he, hc⟩
    · exact he
  | erase a =>
    obtain ⟨-, ⟨-, rfl⟩ | ⟨hn, rfl⟩⟩ := execErase_next a s t h
    · exact he
    · exact ⟨⟨⟨_, rfl, isSectorNumber_resolve s.hw hl a hn⟩, hcur, hlen, hidx, hdbuf, hobuf⟩, hc⟩
  | write a n d =>
    obtain ⟨-, hn, rfl⟩ := execWrite_next a n d s t h
    exact ⟨⟨⟨a, n, 0, _, rfl, rfl, rfl, rfl, List.length_take_of_le hn, rfl⟩, hsel, hobuf⟩, hc⟩
  | read a n =>
    obtain ⟨-, ⟨-, rfl⟩ | ⟨hn, rfl⟩⟩ := execRead_next a n s t h
    · exact ⟨⟨rfl, rfl, rfl, rfl, rfl, rfl⟩, hc⟩
    · have hpos : 0 < n.toNat := Nat.pos_of_ne_zero fun e => hn (BitVec.eq_of_toNat_eq e)
      exact ⟨⟨⟨a, n, 0, [], rfl, rfl, rfl, rfl, rfl, hpos⟩, hsel, hdbuf⟩, hc⟩

/-! One byte on -/

/-- An index below a length is not yet at the end of its 16-bit range. -/
theorem toNat_index_succ (i n : Half) (h : i.toNat < n.toNat) : (i + 1).toNat = i.toNat + 1 := by
  bv_omega

/-- R153: the flags cleared, a WRITE is at its first byte or, with no byte, at its lock. -/
theorem wrClear_keeps_latchInv (s : State) (rest : List CtlReply) (hl : WriteLatches (fun i _ => i = 0) s)
    (hc : s.haltCause = none) :
    LatchInv (goto (if lenVal s = 0 then .wrLock else .wrProg) (ctlClearFlags (setCtlReplies rest s))) := by
  obtain ⟨⟨a, n, i, d, ha, hn, hi, hd, hlen, hzero⟩, hsel, hobuf⟩ := hl
  rw [lenVal_of_some s n hn]
  split
  · next hz => exact ⟨⟨⟨a, n, i, d, ha, hn, hi, hd, hlen, by rw [hzero, hz]; rfl⟩, hsel, hobuf⟩, hc⟩
  · next hz =>
    have hpos : 0 < n.toNat := Nat.pos_of_ne_zero fun e => hz (BitVec.eq_of_toNat_eq e)
    exact ⟨⟨⟨a, n, i, d, ha, hn, hi, hd, hlen, hzero ▸ hpos⟩, hsel, hobuf⟩, hc⟩

/-- R154: a byte programmed, a WRITE is at its next byte or at its lock. -/
theorem wrProg_ready_keeps_latchInv (s : State) (r : CtlReply) (rest : List CtlReply)
    (hl : WriteLatches (fun i n => i < n) s) (hc : s.haltCause = none) :
    LatchInv (goto (if idxVal s + 1 < lenVal s then .wrProg else .wrLock)
      (advance (curVal s) (idxVal s) (ctlProgram (curVal s) (dataByte s) r (setCtlReplies rest s)))) := by
  obtain ⟨⟨a, n, i, d, ha, hn, hi, hd, hlen, hlt⟩, hsel, hobuf⟩ := hl
  have hsucc := toNat_index_succ i n hlt
  rw [lenVal_of_some s n hn, idxVal_of_some s i hi]
  split
  · next hm =>
    rw [BitVec.lt_def] at hm
    exact ⟨⟨⟨_, n, i + 1, d, rfl, by simpa using hn, rfl, by simpa using hd, hlen, hm⟩,
      by simpa using hsel, by simpa using hobuf⟩, by simpa using hc⟩
  · next hm =>
    rw [BitVec.lt_def] at hm
    exact ⟨⟨⟨_, n, i + 1, d, rfl, by simpa using hn, rfl, by simpa using hd, hlen, by omega⟩,
      by simpa using hsel, by simpa using hobuf⟩, by simpa using hc⟩

/-- R162: a byte read and bytes remaining, a READ holds one byte more. -/
theorem rdByte_more_keeps_latchInv (s : State) (r : MemReply) (rest : List MemReply) (b : Byte) (hr : ReadLatches s)
    (hc : s.haltCause = none) (hm : idxVal s + 1 < lenVal s) :
    LatchInv (goto .rdByte (advance (curVal s) (idxVal s)
      { memRead (curVal s) r (setMemReplies rest s) with obuf := some (obufVal s ++ [b]) })) := by
  obtain ⟨⟨a, n, i, o, ha, hn, hi, ho, hlen, hlt⟩, hsel, hdbuf⟩ := hr
  have hsucc := toNat_index_succ i n hlt
  rw [lenVal_of_some s n hn, idxVal_of_some s i hi, BitVec.lt_def] at hm
  rw [idxVal_of_some s i hi, obufVal_of_some s o ho]
  have hlen' : (o ++ [b]).length = (i + 1).toNat := by rw [List.length_append, hlen, hsucc]; rfl
  exact ⟨⟨⟨_, n, i + 1, o ++ [b], rfl, hn, rfl, rfl, hlen', hm⟩, hsel, hdbuf⟩, hc⟩

/-! The chains -/

/-- R25: a command's normal end leaves no latch with a value. -/
theorem endCommand_latchInv (p : Payload) (s : State) (hc : s.haltCause = none) : LatchInv (endCommand p s) :=
  ⟨⟨rfl, rfl, rfl, rfl, rfl, rfl⟩, hc⟩

/-- R22 to R26: a chain step hands the latches on as the state it enters wants them. -/
theorem chainStep_keeps_latchInv (s t : State) (hs : s.seq ≠ .idle) (hi : LatchInv s) (h : chainStep s = .next t) :
    LatchInv t := by
  rcases chainStep_next s t hs h with rfl |
    ⟨r, rest, -, ⟨e, rfl⟩ | ⟨e, rfl⟩ | ⟨e, -, rfl⟩ | ⟨e, -, rfl⟩ | ⟨e, rfl⟩ | ⟨e, rfl⟩ | ⟨e, rfl⟩ | ⟨e, -, rfl⟩ |
      ⟨e, -, rfl⟩ | ⟨e, rfl⟩⟩ |
    ⟨r, rest, -, e, ⟨hm, rfl⟩ | ⟨-, rfl⟩⟩
  · exact hi
  · exact (latchInv_erase s (.inl e)).mp hi
  · exact (latchInv_erase s (.inr (.inl e))).mp hi
  · obtain ⟨hl, hc⟩ := (latchInv_erase s (.inr (.inr (.inl e)))).mp hi
    exact ⟨by simpa [EraseLatches] using hl, by simpa using hc⟩
  · obtain ⟨hl, hc⟩ := (latchInv_erase s (.inr (.inr (.inl e)))).mp hi
    show EraseLatches _
    simpa [EraseLatches] using hl
  · exact endCommand_latchInv _ _ ((latchInv_erase s (.inr (.inr (.inr e)))).mp hi).2
  · exact (latchInv_beforeFirstByte s (.inl e)).mp hi
  · obtain ⟨hl, hc⟩ := (latchInv_beforeFirstByte s (.inr e)).mp hi
    exact wrClear_keeps_latchInv s rest hl hc
  · obtain ⟨hl, hc⟩ := (latchInv_wrProg s e).mp hi
    exact wrProg_ready_keeps_latchInv s r rest hl hc
  · obtain ⟨hl, hc⟩ := (latchInv_wrProg s e).mp hi
    show WriteLatches (fun i n => i < n) _
    simpa [WriteLatches] using hl
  · exact endCommand_latchInv _ _ ((latchInv_wrLock s e).mp hi).2
  · obtain ⟨hl, hc⟩ := (latchInv_rdByte s e).mp hi
    exact rdByte_more_keeps_latchInv s r rest _ hl hc hm
  · exact endCommand_latchInv _ _ ((latchInv_rdByte s e).mp hi).2

end Sys2Proof.Machine
end

section
/-! SUPPORT. The bracket invariant, kept by whatever appends a balanced piece to the history. -/

namespace Sys2Proof.Machine

/-- R32: new events keep the bracket invariant if they open and close the bracket as the sequencer's state says. -/
theorem bracketInv_append (s t : State) (events : List Event) (hi : BracketInv s)
    (hh : t.history = s.history ++ events)
    (hb : events.count .unlock + (if bracketOpen s.seq s.haltCause then 1 else 0) =
      events.count .lock + if bracketOpen t.seq t.haltCause then 1 else 0)
    (hu : t.ctlUnlocked = bracketOpen t.seq t.haltCause) : BracketInv t := by
  obtain ⟨hcount, -⟩ := hi
  refine ⟨?_, hu⟩
  rw [hh, List.count_append, List.count_append, hcount]
  omega

/-- R32: a step that neither unlocks nor locks keeps the bracket invariant if it leaves the bracket as it was. -/
theorem bracketInv_unmoved (s t : State) (events : List Event) (hi : BracketInv s)
    (hh : t.history = s.history ++ events) (hn : events.count .unlock = events.count .lock)
    (hb : bracketOpen t.seq t.haltCause = bracketOpen s.seq s.haltCause) (hu : t.ctlUnlocked = s.ctlUnlocked) :
    BracketInv t :=
  bracketInv_append s t events hi hh (by rw [hb, hn]) (by rw [hu, hi.2, hb])

/-- R32: an answered unlock outside the bracket opens it. -/
theorem bracketInv_unlock (s t : State) (hi : BracketInv s) (hh : t.history = s.history ++ [.unlock])
    (hs : bracketOpen s.seq s.haltCause = false) (ht : bracketOpen t.seq t.haltCause = true)
    (hu : t.ctlUnlocked = true) : BracketInv t :=
  bracketInv_append s t [.unlock] hi hh (by rw [hs, ht]; rfl) (hu.trans ht.symm)

/-- R32: an answered lock inside the bracket, with the response after it, closes it. -/
theorem bracketInv_lock (s t : State) (p : Payload) (hi : BracketInv s)
    (hh : t.history = s.history ++ [.lock, .rsp p]) (hs : bracketOpen s.seq s.haltCause = true)
    (ht : bracketOpen t.seq t.haltCause = false) (hu : t.ctlUnlocked = false) : BracketInv t :=
  bracketInv_append s t [.lock, .rsp p] hi hh (by rw [hs, ht]; rfl) (hu.trans ht.symm)

/-- R32: an accepted command sends the controller nothing, and the bracket stays closed. -/
theorem exec_keeps_bracketInv (i : Instr) (s t : State) (hi : BracketInv s) (h : exec i s = .next t) :
    BracketInv t := by
  have hs : bracketOpen s.seq s.haltCause = false := by rw [exec_next_idle i s t h]; rfl
  cases i with
  | resolve a =>
    obtain ⟨-, rfl⟩ := execResolve_next a s t h
    exact bracketInv_unmoved s _ [.cmd (.resolve a), .rsp (.info (resolve s.hw a))] hi (by simp) (by simp) hs.symm rfl
  | name2num a =>
    obtain ⟨-, ⟨k, -, rfl⟩ | ⟨-, rfl⟩⟩ := execName2num_next a s t h
    · exact bracketInv_unmoved s _ [.cmd (.name2num a), .rsp (.number (ctlIdx k))] hi (by simp) (by simp) hs.symm rfl
    · exact bracketInv_unmoved s _ [.cmd (.name2num a), .halt .nameRange] hi (by simp) (by simp) hs.symm rfl
  | erase a =>
    obtain ⟨-, ⟨-, rfl⟩ | ⟨-, rfl⟩⟩ := execErase_next a s t h
    · exact bracketInv_unmoved s _ [.cmd (.erase a), .halt .eraseBadAddr] hi (by simp) (by simp) hs.symm rfl
    · exact bracketInv_unmoved s _ [.cmd (.erase a)] hi rfl (by simp) hs.symm rfl
  | write a n d =>
    obtain ⟨-, -, rfl⟩ := execWrite_next a n d s t h
    exact bracketInv_unmoved s _ [.cmd (.write a n d)] hi rfl (by simp) hs.symm rfl
  | read a n =>
    obtain ⟨-, ⟨-, rfl⟩ | ⟨-, rfl⟩⟩ := execRead_next a n s t h
    · exact bracketInv_unmoved s _ [.cmd (.read a n), .rsp (.bytes [])] hi (by simp) (by simp) hs.symm rfl
    · exact bracketInv_unmoved s _ [.cmd (.read a n)] hi rfl (by simp) hs.symm rfl

/-- R32: a chain step opens the bracket where it unlocks, closes it where it locks, and leaves it elsewhere. -/
theorem chainStep_keeps_bracketInv (s t : State) (hs : s.seq ≠ .idle) (hi : BracketInv s)
    (h : chainStep s = .next t) : BracketInv t := by
  rcases chainStep_next s t hs h with rfl |
    ⟨r, rest, -, ⟨e, rfl⟩ | ⟨e, rfl⟩ | ⟨e, -, rfl⟩ | ⟨e, -, rfl⟩ | ⟨e, rfl⟩ | ⟨e, rfl⟩ | ⟨e, rfl⟩ | ⟨e, -, rfl⟩ |
      ⟨e, -, rfl⟩ | ⟨e, rfl⟩⟩ |
    ⟨r, rest, -, e, ⟨-, rfl⟩ | ⟨-, rfl⟩⟩
  · exact hi
  · exact bracketInv_unlock s _ hi rfl (by rw [e]; rfl) rfl rfl
  · exact bracketInv_unmoved s _ [.clearFlags flagMask] hi rfl (by simp) (by rw [e]; rfl) rfl
  · exact bracketInv_unmoved s _ [.erase (selVal s) (replyStatus r s)] hi (by simp) (by simp) (by rw [e]; rfl) (by simp)
  · exact bracketInv_unmoved s _ [.erase (selVal s) (replyStatus r s), .halt .eraseFail] hi (by simp) (by simp)
      (by rw [e]; rfl) (by simp)
  · exact bracketInv_lock s _ .none hi (by simp) (by rw [e]; rfl) rfl rfl
  · exact bracketInv_unlock s _ hi rfl (by rw [e]; rfl) rfl rfl
  · exact bracketInv_unmoved s _ [.clearFlags flagMask] hi rfl (by simp) (by rw [e, goto_seq]; split <;> rfl) rfl
  · exact bracketInv_unmoved s _ [.program (curVal s) (dataByte s) (replyStatus r s)] hi (by simp) (by simp)
      (by rw [e, goto_seq]; split <;> rfl) (by simp)
  · exact bracketInv_unmoved s _ [.program (curVal s) (dataByte s) (replyStatus r s), .halt .programFail] hi (by simp)
      (by simp) (by rw [e]; rfl) (by simp)
  · exact bracketInv_lock s _ .none hi (by simp) (by rw [e]; rfl) rfl rfl
  · exact bracketInv_unmoved s _ [.memRd (curVal s) (readValue (curVal s) r s)] hi (by simp) (by simp)
      (by rw [e]; rfl) rfl
  · exact bracketInv_unmoved s _
      [.memRd (curVal s) (readValue (curVal s) r s), .rsp (.bytes (obufVal s ++ [readValue (curVal s) r s]))] hi
      (by simp) (by simp) (by rw [e]; rfl) rfl

end Sys2Proof.Machine
end

section
/-! The obligations of the state: its invariants, what an acceptance leaves, and what changes the flash. -/

open Sys2Proof Sys2Proof.Machine

/-- Settles O51: a reset empties the latches; an acceptance loads, and a chain step hands on, those of the command. -/
theorem latchInvariantIsKept : Obligations.LatchInvariantIsKept := by
  intro s t hi h
  obtain ⟨hl, ⟨found, -, rfl⟩ | ⟨-, -, -, rfl⟩ | ⟨frame, rest, i, -, -, -, -, hx⟩ | ⟨-, hs, hx⟩⟩ := step_cases s t h
  · exact ⟨⟨rfl, rfl, rfl, rfl, rfl, rfl⟩, rfl⟩
  · exact hi
  · exact exec_keeps_latchInv i { s with offers := rest } t hl hi hx
  · exact chainStep_keeps_latchInv s t hs hi hx

/-- Settles O52, by the events each kind of step appends. -/
theorem bracketInvariantIsKept : Obligations.BracketInvariantIsKept := by
  intro s t hi hr h
  obtain ⟨-, ⟨found, hf, -⟩ | ⟨-, -, -, rfl⟩ | ⟨frame, rest, i, -, -, -, -, hx⟩ | ⟨-, hs, hx⟩⟩ := step_cases s t h
  · simp [hr] at hf
  · exact hi
  · exact exec_keeps_bracketInv i { s with offers := rest } t hi hx
  · exact chainStep_keeps_bracketInv s t hs hi hx

/-- Settles O30, command by command. -/
theorem acceptingStepFrame : Obligations.AcceptingStepFrame := by
  intro i s t h
  cases i with
  | resolve a =>
    obtain ⟨hs, rfl⟩ := execResolve_next a s t h
    simp [hs]
  | name2num a => obtain ⟨-, ⟨k, -, rfl⟩ | ⟨-, rfl⟩⟩ := execName2num_next a s t h <;> simp
  | erase a => obtain ⟨-, ⟨-, rfl⟩ | ⟨-, rfl⟩⟩ := execErase_next a s t h <;> simp
  | write a n d =>
    obtain ⟨-, -, rfl⟩ := execWrite_next a n d s t h
    simp
  | read a n => obtain ⟨-, ⟨hn, rfl⟩ | ⟨-, rfl⟩⟩ := execRead_next a n s t h <;> simp [*]

/-- Settles O56: a reset and a wait append nothing, an acceptance and a chain step their events. -/
theorem historyGrowsParametersStay : Obligations.HistoryGrowsParametersStay := by
  intro s t h
  suffices t.hw = s.hw ∧ s.history <+: t.history from
    this.imp_right fun ⟨events, he⟩ => ⟨events, he.symm⟩
  obtain ⟨-, ⟨found, -, rfl⟩ | ⟨-, -, -, rfl⟩ | ⟨frame, rest, i, -, -, -, -, hx⟩ | ⟨-, hs, hx⟩⟩ := step_cases s t h
  · simp
  · simp
  · exact exec_grows_history i { s with offers := rest } t hx
  · exact chainStep_grows_history s t hs hx

/-- Settles O58: in `IDLE` nothing changes; a chain step changes the target of its call alone. -/
theorem flashChangesOnlyByItsCalls : Obligations.FlashChangesOnlyByItsCalls := by
  intro s t hr h
  obtain ⟨-, ⟨found, hf, -⟩ | ⟨-, hs, -, rfl⟩ | ⟨frame, rest, i, -, hs, -, -, hx⟩ | ⟨-, hs, hx⟩⟩ := step_cases s t h
  · simp [hr] at hf
  · simp [hs]
  · obtain ⟨-, hu, -, hf, -⟩ := acceptingStepFrame i _ t hx
    simp [hs, hu, hf]
  · refine ⟨chainStep_changed_byte s t hs hx, chainStep_changed_lock s t hs hx, ?_, ?_⟩
    · intro n r rest e hn hc
      rw [chainStep, e] at hx
      rw [← selVal_of_some s n hn]
      exact stepErErase_effect s t r rest hc hx
    · intro a i d v r rest e ha hi hd hv hc
      rw [chainStep, e] at hx
      rw [← curVal_of_some s a ha, ← dataByte_of_some s d i v hd hi hv]
      exact stepWrProg_effect s t r rest hc hx

/-- Settles O55, by evaluating each invariant at the reset state. -/
theorem invariantsHoldAtReset : Obligations.InvariantsHoldAtReset :=
  ⟨⟨⟨rfl, rfl, rfl, rfl, rfl, rfl⟩, rfl⟩, ⟨rfl, rfl⟩, ⟨by decide, rfl⟩, fun _ _ h => by cases h⟩

end

section
/-! SUPPORT. The contents a reference operation leaves, byte by byte (R67). -/

namespace Sys2Proof.Machine

/-- R79, R80: the rows' selectors differ, so a row's number selects that row. -/
theorem rowOfNumber_ctlIdx : ∀ r ∈ sectorTable, rowOfNumber (ctlIdx r.selector) = some r := by decide

theorem readCell_erasedSector (hw : Params) (m : Memory) (r : SectorRow) (hr : r ∈ sectorTable) (x : Nat) :
    readCell (erasedSector hw (ctlIdx r.selector) m) x = if rowHolds hw x r then unlistedByte else readCell m x := by
  simp only [erasedSector, rowOfNumber_ctlIdx r hr, readCell_eraseCells, rowHolds_iff]

theorem readCell_programmedByte (hw : Params) (a : Word) (v : Byte) (m : Memory) (ha : inRegion hw a.toNat = true)
    (x : Nat) : readCell (programmedByte hw a v m) x = if x = a.toNat then readCell m x &&& v else readCell m x := by
  rw [programmedByte, if_pos ha, readCell_writeCell]
  split
  · next h => rw [h]
  · rfl

/-! R67: unlocked, the reference controller leaves the contents of a successful operation. -/

theorem ctlErase_reference_flash (n : Word) (s : State) (h : s.ctlUnlocked = true) :
    (ctlErase n .reference s).flash = erasedSector s.hw n s.flash := if_pos h

theorem ctlProgram_reference_flash (a : Word) (v : Byte) (s : State) (h : s.ctlUnlocked = true) :
    (ctlProgram a v .reference s).flash = programmedByte s.hw a v s.flash := if_pos h

/-- R65: a read of the region answered with the contents gives the byte there. -/
theorem readValue_contents (a : Word) (s : State) (h : inRegion s.hw a.toNat = true) :
    readValue a .contents s = readCell s.flash a.toNat := if_pos h

end Sys2Proof.Machine
end

section
/-! The obligation of the reference environment's contents (spec/20_memory.md R67). -/

open Sys2Proof Sys2Proof.Machine

/-- Settles O60: each operation leaves its successful contents, and those are known byte by byte. -/
theorem referenceContentsOfOperations : Obligations.ReferenceContentsOfOperations := by
  intro s hu
  refine ⟨?erase, ?program, fun a ha => readValue_contents a s ha⟩
  case erase =>
    rintro n r hr rfl x
    rw [ctlErase_reference_flash _ s hu]
    exact readCell_erasedSector s.hw s.flash r hr x
  case program =>
    intro a v ha x
    rw [ctlProgram_reference_flash a v s hu]
    exact readCell_programmedByte s.hw a v s.flash ha x

end

section
/-! SUPPORT. The events an accepted command and a chain step append, and that a chain step takes no offer. -/

namespace Sys2Proof.Machine

/-- R74, R175: an event that ends a command: its response or its halt. -/
def EndsCommand : Event → Prop
  | .rsp _ | .halt _ => True
  | _ => False

/-- R142 to R162: an event a chain step from `s` may append: no `Cmd`, and an `Erase` of the latched number in `ER_ERASE` alone. -/
def ChainEvent (s : State) : Event → Prop
  | .cmd _ => False
  | .erase n _ => s.seq = .erErase ∧ n = selVal s
  | _ => True

/-- R72: an acceptance appends its `Cmd` event, then at most the command's end. -/
theorem exec_events (i : Instr) (s t : State) (h : exec i s = .next t) :
    ∃ events, t.history = s.history ++ .cmd i :: events ∧ ∀ e ∈ events, EndsCommand e := by
  cases i with
  | resolve a =>
    obtain ⟨-, rfl⟩ := execResolve_next a s t h
    exact ⟨[.rsp (.info (resolve s.hw a))], by simp, by simp [EndsCommand]⟩
  | name2num a =>
    obtain ⟨-, ⟨k, -, rfl⟩ | ⟨-, rfl⟩⟩ := execName2num_next a s t h
    · exact ⟨[.rsp (.number (ctlIdx k))], by simp, by simp [EndsCommand]⟩
    · exact ⟨[.halt .nameRange], by simp, by simp [EndsCommand]⟩
  | erase a =>
    obtain ⟨-, ⟨-, rfl⟩ | ⟨-, rfl⟩⟩ := execErase_next a s t h
    · exact ⟨[.halt .eraseBadAddr], by simp, by simp [EndsCommand]⟩
    · exact ⟨[], rfl, by simp⟩
  | write a n d =>
    obtain ⟨-, -, rfl⟩ := execWrite_next a n d s t h
    exact ⟨[], rfl, by simp⟩
  | read a n =>
    obtain ⟨-, ⟨-, rfl⟩ | ⟨-, rfl⟩⟩ := execRead_next a n s t h
    · exact ⟨[.rsp (.bytes [])], by simp, by simp [EndsCommand]⟩
    · exact ⟨[], rfl, by simp⟩

/-- R22: a chain step appends chain events alone. -/
theorem chainStep_events (s t : State) (hs : s.seq ≠ .idle) (h : chainStep s = .next t) :
    ∃ events, t.history = s.history ++ events ∧ ∀ e ∈ events, ChainEvent s e := by
  rcases chainStep_next s t hs h with rfl |
    ⟨r, rest, -, ⟨-, rfl⟩ | ⟨-, rfl⟩ | ⟨e, -, rfl⟩ | ⟨e, -, rfl⟩ | ⟨-, rfl⟩ | ⟨-, rfl⟩ | ⟨-, rfl⟩ | ⟨-, -, rfl⟩ |
      ⟨-, -, rfl⟩ | ⟨-, rfl⟩⟩ |
    ⟨r, rest, -, -, ⟨-, rfl⟩ | ⟨-, rfl⟩⟩
  · exact ⟨[], by simp, by simp⟩
  · exact ⟨[.unlock], rfl, by simp [ChainEvent]⟩
  · exact ⟨[.clearFlags flagMask], rfl, by simp [ChainEvent]⟩
  · exact ⟨[.erase (selVal s) (replyStatus r s)], by simp, by simp [ChainEvent, e]⟩
  · exact ⟨[.erase (selVal s) (replyStatus r s), .halt .eraseFail], by simp, by simp [ChainEvent, e]⟩
  · exact ⟨[.lock, .rsp .none], by simp, by simp [ChainEvent]⟩
  · exact ⟨[.unlock], rfl, by simp [ChainEvent]⟩
  · exact ⟨[.clearFlags flagMask], rfl, by simp [ChainEvent]⟩
  · exact ⟨[.program (curVal s) (dataByte s) (replyStatus r s)], by simp, by simp [ChainEvent]⟩
  · exact ⟨[.program (curVal s) (dataByte s) (replyStatus r s), .halt .programFail], by simp, by simp [ChainEvent]⟩
  · exact ⟨[.lock, .rsp .none], by simp, by simp [ChainEvent]⟩
  · exact ⟨[.memRd (curVal s) (readValue (curVal s) r s)], by simp, by simp [ChainEvent]⟩
  · exact ⟨[.memRd (curVal s) (readValue (curVal s) r s), .rsp (.bytes (obufVal s ++ [readValue (curVal s) r s]))],
      by simp, by simp [ChainEvent]⟩

/-- R80: new events keep the invariant if the `Erase` events among them carry numbers of the 28 sectors. -/
theorem eraseEventsInv_append (s t : State) (events : List Event) (hi : EraseEventsInv s)
    (hh : t.history = s.history ++ events) (hn : ∀ n st, Event.erase n st ∈ events → isSectorNumber n = true) :
    EraseEventsInv t := by
  intro n st hm
  rw [hh, List.mem_append] at hm
  exact hm.elim (hi n st) (hn n st)

/-- An acceptance sends the controller no erase. -/
theorem exec_keeps_eraseEventsInv (i : Instr) (s t : State) (hi : EraseEventsInv s) (h : exec i s = .next t) :
    EraseEventsInv t := by
  obtain ⟨events, hh, he⟩ := exec_events i s t h
  refine eraseEventsInv_append s t _ hi hh fun n st hm => ?_
  rcases List.mem_cons.mp hm with hc | hm
  · cases hc
  · exact (he _ hm).elim

/-- R24, R80: the one erase of a chain carries the latched number, which the latch invariant knows to be a sector's. -/
theorem chainStep_keeps_eraseEventsInv (s t : State) (hs : s.seq ≠ .idle) (hl : LatchInv s) (hi : EraseEventsInv s)
    (h : chainStep s = .next t) : EraseEventsInv t := by
  obtain ⟨events, hh, he⟩ := chainStep_events s t hs h
  refine eraseEventsInv_append s t events hi hh fun n st hm => ?_
  obtain ⟨e, rfl⟩ : s.seq = .erErase ∧ n = selVal s := he _ hm
  obtain ⟨⟨⟨m, hm, hreal⟩, -⟩, -⟩ := (latchInv_erase s (.inr (.inr (.inl e)))).mp hl
  rwa [selVal_of_some s m hm]

/-- R72: a chain step takes no offer. -/
theorem chainStep_offers (s t : State) (hs : s.seq ≠ .idle) (h : chainStep s = .next t) : t.offers = s.offers := by
  rcases chainStep_next s t hs h with rfl |
    ⟨r, rest, -, ⟨-, rfl⟩ | ⟨-, rfl⟩ | ⟨-, -, rfl⟩ | ⟨-, -, rfl⟩ | ⟨-, rfl⟩ | ⟨-, rfl⟩ | ⟨-, rfl⟩ | ⟨-, -, rfl⟩ |
      ⟨-, -, rfl⟩ | ⟨-, rfl⟩⟩ |
    ⟨r, rest, -, -, ⟨-, rfl⟩ | ⟨-, rfl⟩⟩ <;> simp

end Sys2Proof.Machine
end

section
/-! SUPPORT. What is refused (R72, R73, R84), and the two tables of R78 and R81 side by side. -/

namespace Sys2Proof

/-- R84: the three codes above 4 select no format. -/
theorem decode_reserved (b : Byte) (operands : List Byte) (h : 5 ≤ (opField b).toNat) :
    decode (b :: operands) = .error (.reservedCode (opField b)) := by
  have hne : ∀ k : BitVec 3, k.toNat < 5 → opField b ≠ k := by
    rintro k hk rfl
    omega
  simp [decode, decodeFields, hne]

/-- R73: the transaction of a WRITE with too little data carries no command. -/
theorem decode_short_write (a : Word) (n : Half) (d : List Byte) (h : d.length < n.toNat) :
    decode (encode (.write a n d)) = .error .shortData := by
  rw [encode, decode_opByte, Instr.opCode, decodeFields_write]
  simp only [encodeFields, bytes32, bytes16, List.cons_append, List.nil_append, decodeWrite, half16_of_bytes]
  exact if_neg (Nat.not_le.mpr h)

end Sys2Proof

namespace Sys2Proof.Machine

/-- In `IDLE`, no reset asked for, a transaction that is no command is refused for the decoder's reason. -/
theorem step_badCommand (s : State) (why : DecodeError) (frame : List Byte) (rest : List (List Byte))
    (he : Enabled s) (hs : s.seq = .idle) (ho : s.offers = frame :: rest) (hd : decode frame = .error why) :
    step s = .refused (.badCommand why) := by
  obtain ⟨hl, hr⟩ := he
  simp [step, oneStep, hl, hr, hs, nextOffer, ho, hd]

/-- R73: in any state. -/
theorem exec_short_write (s : State) (a : Word) (n : Half) (d : List Byte) (h : d.length < n.toNat) :
    exec (.write a n d) s = .refused .shortData :=
  if_neg (Nat.not_le.mpr h)

/-- R151: with enough data, in `IDLE`, the first `length` bytes are latched. -/
theorem exec_write_dbuf (s : State) (a : Word) (n : Half) (d : List Byte) (hs : s.seq = .idle)
    (h : n.toNat ≤ d.length) : ∃ t, exec (.write a n d) s = .next t ∧ t.dbuf = some (d.take n.toNat) :=
  ⟨_, (if_pos h).trans (accept_idle _ s _ hs), rfl⟩

/-- R72: outside `IDLE` every command is refused. -/
theorem exec_busy (i : Instr) (s : State) (hs : s.seq ≠ .idle) : ∃ why, exec i s = .refused why := by
  cases i with
  | resolve a => exact ⟨_, by rw [exec, execResolve, accept_busy _ s _ hs]⟩
  | name2num a => exact ⟨_, by rw [exec, execName2num, accept_busy _ s _ hs]⟩
  | erase a => exact ⟨_, by rw [exec, execErase, accept_busy _ s _ hs]⟩
  | write a n d =>
    by_cases hn : n.toNat ≤ d.length
    · exact ⟨_, (if_pos hn).trans (accept_busy _ s _ hs)⟩
    · exact ⟨_, exec_short_write s a n d (Nat.not_le.mp hn)⟩
  | read a n => exact ⟨_, by rw [exec, execRead, accept_busy _ s _ hs]⟩

/-! R78, R81: over the 28 names and over the 32 selectors. -/

theorem nameOfSelector_selectorOfName (name : Word) (h : name ≤ 0x1B) :
    ∃ k, selectorOfName name = some k ∧ nameOfSelector k = some name := by
  have hall : ∀ n < 28, (selectorOfName (BitVec.ofNat 32 n)).bind nameOfSelector = some (BitVec.ofNat 32 n) := by decide
  have hn := hall name.toNat (Nat.lt_succ_of_le (BitVec.le_def.mp h))
  rw [BitVec.ofNat_toNat, BitVec.setWidth_eq] at hn
  exact Option.bind_eq_some_iff.mp hn

theorem selectorOfName_nameOfSelector (k : Selector) (name : Word) (h : nameOfSelector k = some name) :
    selectorOfName name = some k := by
  have hall : ∀ k : Selector, (nameOfSelector k).bind selectorOfName = (nameOfSelector k).map fun _ => k := by decide
  simpa [h] using hall k

theorem selector_occurs_iff :
    ∀ k : Selector, (∃ r ∈ sectorTable, r.selector = k) ↔ (nameOfSelector k).isSome := by decide

end Sys2Proof.Machine
end

section
/-! The obligations of the encoding: what is refused, when a command is accepted, and the sector numbers. -/

open Sys2Proof Sys2Proof.Machine

/-- Settles O54: an acceptance appends no `Erase` event, and a chain step only one of the latched number. -/
theorem eraseEventsNameRealSectors : Obligations.EraseEventsNameRealSectors := by
  intro s t hl hi h
  obtain ⟨-, ⟨found, -, rfl⟩ | ⟨-, -, -, rfl⟩ | ⟨frame, rest, i, -, -, -, -, hx⟩ | ⟨-, hs, hx⟩⟩ := step_cases s t h
  · exact hi
  · exact hi
  · exact exec_keeps_eraseEventsInv i { s with offers := rest } t hi hx
  · exact chainStep_keeps_eraseEventsInv s t hs hl hi hx

/-- Settles O7: outside `IDLE` a step is a reset or a chain step, and neither appends a `Cmd`. -/
theorem commandAcceptedOnlyInIdle : Obligations.CommandAcceptedOnlyInIdle := by
  refine ⟨exec_busy, ?step, ?accepted⟩
  case step =>
    intro s t hs h
    obtain ⟨-, ⟨found, -, rfl⟩ | ⟨-, e, -⟩ | ⟨frame, rest, i, -, e, -⟩ | ⟨-, -, hx⟩⟩ := step_cases s t h
    · exact ⟨rfl, [], by simp, by simp⟩
    · exact absurd e hs
    · exact absurd e hs
    · obtain ⟨events, hh, he⟩ := chainStep_events s t hs hx
      exact ⟨chainStep_offers s t hs hx, events, hh, fun i hm => he _ hm⟩
  case accepted =>
    intro i s t h
    obtain ⟨events, hh, he⟩ := exec_events i s t h
    exact ⟨events, hh, fun j hm => he _ hm⟩

/-- Settles O24, by evaluating both tables. -/
theorem nameAndSelectorAreInverse : Obligations.NameAndSelectorAreInverse :=
  ⟨nameOfSelector_selectorOfName, selectorOfName_nameOfSelector,
    fun k => (selector_occurs_iff k).trans Option.isSome_iff_exists⟩

/-- Settles O4: the decoder's refusal is the step's. -/
theorem reservedCodeIsRefused : Obligations.ReservedCodeIsRefused :=
  fun s b operands rest he hs ho hb => step_badCommand s _ (b :: operands) rest he hs ho (decode_reserved b operands hb)

/-- Settles O5: `exec` and the decoder make the same length test, and `take` drops just the surplus. -/
theorem shortWriteIsRefused : Obligations.ShortWriteIsRefused := by
  refine ⟨?short, ?enough⟩
  case short =>
    intro s a n d rest h
    exact ⟨exec_short_write s a n d h, fun he hs ho => step_badCommand s _ _ rest he hs ho (decode_short_write a n d h)⟩
  case enough =>
    intro s a n d extra hs hd
    obtain ⟨t, hx, hb⟩ := exec_write_dbuf s a n (d ++ extra) hs (by simp [hd])
    exact ⟨t, hx, by rw [hb, ← hd, List.take_left]⟩

end

section
/-! SUPPORT. The resolver's seven branches by ranges of the offset, and every address of the region as an address of one row of the sector table (spec/40_resolver.md R118). -/

namespace Sys2Proof.Machine

/-! R103 to R111: the record of each range of offsets. -/

theorem quarterOf_lt_iff (offset n : Word) : quarterOf offset < n ↔ offset.toNat < n.toNat * 0x4000 := by
  rw [BitVec.lt_def, quarterOf_toNat, Nat.div_lt_iff_lt_mul (by decide)]

theorem resolveBank0_small (hw : Params) (offset : Word) (h : offset.toNat < 0x10000) :
    resolveBank0 hw offset = sectorRecord (quarterOf offset) (quarterOf offset) size16KB
      (hw.bank0Start + quarterOf offset * size16KB) :=
  if_pos ((quarterOf_lt_iff offset 4).mpr h)

theorem resolveBank0_merged (hw : Params) (offset : Word) (h : 0x10000 ≤ offset.toNat) (h' : offset.toNat < 0x20000) :
    resolveBank0 hw offset = ⟨4, ctlIdx 4, size64KB, hw.bank0Start + 0x10000, hw.bank0Start + 0x1FFFF⟩ :=
  (if_neg (mt (quarterOf_lt_iff offset 4).mp h.not_gt)).trans (if_pos ((quarterOf_lt_iff offset 8).mpr h'))

theorem resolveBank0_large (hw : Params) (offset : Word) (h : 0x20000 ≤ offset.toNat) :
    resolveBank0 hw offset = sectorRecord (block128Of offset + 4) (block128Of offset + 4) size128KB
      (hw.bank0Start + block128Of offset * size128KB) := by
  have h4 : ¬ quarterOf offset < 4 := mt (quarterOf_lt_iff offset 4).mp (show ¬ _ < 0x10000 by omega)
  have h8 : ¬ quarterOf offset < 8 := mt (quarterOf_lt_iff offset 8).mp h.not_gt
  simp only [resolveBank0, h4, h8, if_false]

theorem resolveBank1_small (hw : Params) (offset : Word) (h : offset.toNat < 0x10000) :
    resolveBank1 hw offset = sectorRecord (quarterOf offset + 0xC) (quarterOf offset + 0x10) size16KB
      (b1sAddr hw + quarterOf offset * size16KB) :=
  if_pos ((quarterOf_lt_iff offset 4).mpr h)

theorem resolveBank1_merged (hw : Params) (offset : Word) (h : 0x10000 ≤ offset.toNat) (h' : offset.toNat < 0x20000) :
    resolveBank1 hw offset = ⟨0x10, ctlIdx 0x14, size64KB, hw.bank1Start + 0x10000, hw.bank1Start + 0x1FFFF⟩ :=
  (if_neg (mt (quarterOf_lt_iff offset 4).mp h.not_gt)).trans (if_pos ((quarterOf_lt_iff offset 8).mpr h'))

theorem resolveBank1_large (hw : Params) (offset : Word) (h : 0x20000 ≤ offset.toNat) (h' : offset.toNat < 0x100000) :
    resolveBank1 hw offset = sectorRecord (block128Of offset + 0x10) (block128Of offset + 0x14) size128KB
      (hw.bank1Start + block128Of offset * size128KB) := by
  have h4 : ¬ quarterOf offset < 4 := mt (quarterOf_lt_iff offset 4).mp (show ¬ _ < 0x10000 by omega)
  have h8 : ¬ quarterOf offset < 8 := mt (quarterOf_lt_iff offset 8).mp h.not_gt
  have h64 : quarterOf offset < 64 := (quarterOf_lt_iff offset 64).mpr h'
  simp only [resolveBank1, h4, h8, h64, if_false, if_true]

theorem resolveBank1_extraLarge (hw : Params) (offset : Word) (h : 0x100000 ≤ offset.toNat) :
    resolveBank1 hw offset = sectorRecord (block256Of offset + 0x14) (block256Of offset + 8) size256KB
      (hw.bank1Start + block256Of offset * size256KB) := by
  have h4 : ¬ quarterOf offset < 4 := mt (quarterOf_lt_iff offset 4).mp (show ¬ _ < 0x10000 by omega)
  have h8 : ¬ quarterOf offset < 8 := mt (quarterOf_lt_iff offset 8).mp (show ¬ _ < 0x20000 by omega)
  have h64 : ¬ quarterOf offset < 64 := mt (quarterOf_lt_iff offset 64).mp h.not_gt
  simp only [resolveBank1, h4, h8, h64, if_false]

/-! R79: the table's rows in the shape the branches give them. -/

/-- The row whose record is the branches' `sectorRecord`: `size` bytes from the offset `first` of its bank. -/
def slotRow (name slot size first : Word) (inBank1 fromB1s : Bool) : SectorRow :=
  ⟨name, selectorOfSlot slot, size, inBank1, first, first + (size - 1), fromB1s⟩

/-- R79: the row of name 4, bank0's merged sector. -/
def bank0MergedRow : SectorRow := ⟨4, 4, 0x10000, false, 0x10000, 0x1FFFF, false⟩

/-- R79: the row of name 0x10, bank1's merged sector. -/
def bank1MergedRow : SectorRow := ⟨0x10, 0x14, 0x10000, true, 0x10000, 0x1FFFF, false⟩

theorem rowInfo_slotRow (hw : Params) (name slot size first : Word) (inBank1 fromB1s : Bool) :
    rowInfo hw (slotRow name slot size first inBank1 fromB1s) =
      sectorRecord name slot size ((if fromB1s then b1sAddr hw else bankStart hw inBank1) + first) := by
  rw [sectorRecord, add_sub_assoc, add_assoc]
  rfl

/-- A property of the numbers below `n`, as 32-bit words, is one of the words below `n`. -/
theorem forall_word_lt {p : Word → Prop} (n : Nat) (h : ∀ k < n, p (BitVec.ofNat 32 k)) :
    ∀ v : Word, v.toNat < n → p v := by
  intro v hv
  simpa using h v.toNat hv

theorem bank0_smallRow : ∀ quarter : Word, quarter.toNat < 4 →
    slotRow quarter quarter size16KB (quarter * size16KB) false false ∈ sectorTable :=
  forall_word_lt 4 (by decide)

theorem bank0_mergedRow : bank0MergedRow ∈ sectorTable := by decide

theorem bank0_largeRow : ∀ block : Word, block.toNat < 8 → 1 ≤ block →
    slotRow (block + 4) (block + 4) size128KB (block * size128KB) false false ∈ sectorTable :=
  forall_word_lt 8 (by decide)

theorem bank1_smallRow : ∀ quarter : Word, quarter.toNat < 4 →
    slotRow (quarter + 0xC) (quarter + 0x10) size16KB (quarter * size16KB) true true ∈ sectorTable :=
  forall_word_lt 4 (by decide)

theorem bank1_mergedRow : bank1MergedRow ∈ sectorTable := by decide

theorem bank1_largeRow : ∀ block : Word, block.toNat < 8 → 1 ≤ block →
    slotRow (block + 0x10) (block + 0x14) size128KB (block * size128KB) true false ∈ sectorTable :=
  forall_word_lt 8 (by decide)

theorem bank1_extraLargeRow : ∀ block : Word, block.toNat < 8 → 4 ≤ block →
    slotRow (block + 0x14) (block + 8) size256KB (block * size256KB) true false ∈ sectorTable :=
  forall_word_lt 8 (by decide)

/-- R79: the 28 names are distinct. -/
theorem rows_of_one_name : ∀ r ∈ sectorTable, ∀ r' ∈ sectorTable, r.name = r'.name → r = r' := by decide

/-! R118: each branch gives the record of a row that holds the offset. -/

/-- `si` is the record of a row of the table that holds `offset` in its bank. -/
def RecordOfRowAt (hw : Params) (inBank1 : Bool) (offset : Word) (si : SectorInfo) : Prop :=
  ∃ r ∈ sectorTable, r.inBank1 = inBank1 ∧ r.first ≤ offset ∧ offset ≤ r.last ∧ si = rowInfo hw r

/-- R76: an offset in a bank lies in the sector its quotient by the size names. -/
theorem slot_bounds (offset size : Word) (ho : offset.toNat < 0x200000) (hs : 0 < size ∧ size ≤ size256KB) :
    offset / size * size ≤ offset ∧ offset ≤ offset / size * size + (size - 1) := by
  have hpos : 0 < size.toNat := hs.1
  have hmax : size.toNat ≤ 0x40000 := hs.2
  have hle := Nat.div_mul_le_self offset.toNat size.toNat
  have hlt := Nat.lt_div_mul_add (a := offset.toNat) hpos
  have hfirst : (offset / size * size).toNat = offset.toNat / size.toNat * size.toNat := by
    rw [BitVec.toNat_mul, BitVec.toNat_udiv]
    exact Nat.mod_eq_of_lt (hle.trans_lt offset.isLt)
  rw [← hfirst] at hle hlt
  generalize offset / size * size = first at hle hlt ⊢
  constructor <;> bv_omega

theorem recordOfRowAt_slot (hw : Params) (offset name slot size : Word) (inBank1 fromB1s : Bool)
    (ho : offset.toNat < 0x200000) (hs : 0 < size ∧ size ≤ size256KB)
    (hm : slotRow name slot size (offset / size * size) inBank1 fromB1s ∈ sectorTable) :
    RecordOfRowAt hw inBank1 offset
      (sectorRecord name slot size ((if fromB1s then b1sAddr hw else bankStart hw inBank1) + offset / size * size)) := by
  obtain ⟨hfirst, hlast⟩ := slot_bounds offset size ho hs
  exact ⟨_, hm, rfl, hfirst, hlast, (rowInfo_slotRow hw name slot size _ inBank1 fromB1s).symm⟩

theorem resolveBank0_row (hw : Params) (offset : Word) (h : offset.toNat < 0x100000) :
    RecordOfRowAt hw false offset (resolveBank0 hw offset) := by
  have hquarter := quarterOf_toNat offset
  have hblock := block128Of_toNat offset
  by_cases h1 : offset.toNat < 0x10000
  · rw [resolveBank0_small hw offset h1]
    exact recordOfRowAt_slot hw offset _ _ size16KB false false (by omega) (by decide)
      (bank0_smallRow (quarterOf offset) (by omega))
  by_cases h2 : offset.toNat < 0x20000
  · rw [resolveBank0_merged hw offset (by omega) h2]
    exact ⟨_, bank0_mergedRow, rfl, Nat.not_lt.mp h1, Nat.le_of_lt_succ h2, rfl⟩
  · rw [resolveBank0_large hw offset (by omega)]
    exact recordOfRowAt_slot hw offset _ _ size128KB false false (by omega) (by decide)
      (bank0_largeRow (block128Of offset) (by omega) (by bv_omega))

theorem resolveBank1_row (hw : Params) (offset : Word) (h : offset.toNat < 0x200000) :
    RecordOfRowAt hw true offset (resolveBank1 hw offset) := by
  have hquarter := quarterOf_toNat offset
  have hblock := block128Of_toNat offset
  have hblock256 := block256Of_toNat offset
  by_cases h1 : offset.toNat < 0x10000
  · rw [resolveBank1_small hw offset h1]
    exact recordOfRowAt_slot hw offset _ _ size16KB true true h (by decide)
      (bank1_smallRow (quarterOf offset) (by omega))
  by_cases h2 : offset.toNat < 0x20000
  · rw [resolveBank1_merged hw offset (by omega) h2]
    exact ⟨_, bank1_mergedRow, rfl, Nat.not_lt.mp h1, Nat.le_of_lt_succ h2, rfl⟩
  by_cases h3 : offset.toNat < 0x100000
  · rw [resolveBank1_large hw offset (by omega) h3]
    exact recordOfRowAt_slot hw offset _ _ size128KB true false h (by decide)
      (bank1_largeRow (block128Of offset) (by omega) (by bv_omega))
  · rw [resolveBank1_extraLarge hw offset (by omega)]
    exact recordOfRowAt_slot hw offset _ _ size256KB true false h (by decide)
      (bank1_extraLargeRow (block256Of offset) (by omega) (by bv_omega))

/-! R118: addresses and rows. -/

/-- R52, R102: an address of the region lies in one of the banks. -/
theorem inRegion_cases (hw : Params) (h : hw.legal = true) (a : Word) (ha : inRegion hw a.toNat = true) :
    (∃ offset : Word, offset.toNat < 0x100000 ∧ a = hw.bank0Start + offset) ∨
      ∃ offset : Word, offset.toNat < 0x200000 ∧ a = hw.bank1Start + offset := by
  obtain ⟨hstart, h1, hend, htop⟩ := legal_bounds hw h
  rw [inRegion_iff, hstart, hend] at ha
  by_cases hb : a.toNat < hw.bank1Start.toNat
  · exact .inl ⟨a - hw.bank0Start, by bv_omega, (add_sub_cancel _ _).symm⟩
  · exact .inr ⟨a - hw.bank1Start, by bv_omega, (add_sub_cancel _ _).symm⟩

/-- R79: a row holds the address where its range of offsets holds the offset. -/
theorem rowHolds_offset (hw : Params) (h : hw.legal = true) (r : SectorRow) (hr : r ∈ sectorTable) (offset : Word)
    (hfirst : r.first ≤ offset) (hlast : offset ≤ r.last) :
    rowHolds hw (bankStart hw r.inBank1 + offset).toNat r = true := by
  obtain ⟨-, h1, -, htop⟩ := legal_bounds hw h
  obtain ⟨-, hbank⟩ := row_offsets_in_bank r hr
  rw [rowHolds_iff, rowFirst, rowLast]
  cases hb : r.inBank1 <;> simp only [hb, bankStart, if_true, if_false, Bool.false_eq_true] at hbank ⊢ <;> bv_omega

theorem RecordOfRowAt.holds {hw : Params} {inBank1 : Bool} {offset : Word} {si : SectorInfo} (h : hw.legal = true)
    (hsi : RecordOfRowAt hw inBank1 offset si) :
    ∃ r ∈ sectorTable, rowHolds hw (bankStart hw inBank1 + offset).toNat r = true ∧ si = rowInfo hw r := by
  obtain ⟨r, hr, rfl, hfirst, hlast, e⟩ := hsi
  exact ⟨r, hr, rowHolds_offset hw h r hr offset hfirst hlast, e⟩

/-- R118: an address of the region resolves to the record of a row that holds it. -/
theorem resolve_row (hw : Params) (h : hw.legal = true) (a : Word) (ha : inRegion hw a.toNat = true) :
    ∃ r ∈ sectorTable, rowHolds hw a.toNat r = true ∧ resolve hw a = rowInfo hw r := by
  rcases inRegion_cases hw h a ha with ⟨offset, ho, rfl⟩ | ⟨offset, ho, rfl⟩
  · have hrow := (resolveBank0_row hw offset ho).holds h
    rwa [← resolve_in_bank0 hw h offset ho] at hrow
  · have hrow := (resolveBank1_row hw offset ho).holds h
    rwa [← resolve_in_bank1 hw h offset ho] at hrow

/-- R118: an address that a row of the table holds resolves to that row's record. -/
theorem resolve_of_rowHolds (hw : Params) (h : hw.legal = true) (a : Word) (r : SectorRow) (hr : r ∈ sectorTable)
    (ha : rowHolds hw a.toNat r = true) : resolve hw a = rowInfo hw r := by
  obtain ⟨r', hr', ha', e⟩ := resolve_row hw h a (row_in_region hw h r hr _ ha)
  rw [e, row_unique hw h r r' hr hr' _ ha ha']

theorem resolve_of_offset (hw : Params) (h : hw.legal = true) (r : SectorRow) (hr : r ∈ sectorTable) (offset : Word)
    (hfirst : r.first ≤ offset) (hlast : offset ≤ r.last) :
    resolve hw (bankStart hw r.inBank1 + offset) = rowInfo hw r :=
  resolve_of_rowHolds hw h _ r hr (rowHolds_offset hw h r hr offset hfirst hlast)

/-- The byte at `o` of the table's row that begins at `first` resolves to that row's record, its selector `k` as the caller writes it. -/
theorem resolve_slotRow (hw : Params) (h : hw.legal = true) {name slot size first : Word} {inBank1 fromB1s : Bool}
    (hm : slotRow name slot size first inBank1 fromB1s ∈ sectorTable) (o : Word) (ho : o < size) {k : Selector}
    (hk : selectorOfSlot slot = k) :
    resolve hw (bankStart hw inBank1 + first + o) =
      ⟨name, ctlIdx k, size, (if fromB1s then b1sAddr hw else bankStart hw inBank1) + first,
        (if fromB1s then b1sAddr hw else bankStart hw inBank1) + first + (size - 1)⟩ := by
  have hrow : first ≤ first + (size - 1) := (row_offsets_in_bank _ hm).1
  rw [add_assoc, ← hk]
  refine (resolve_of_offset hw h _ hm (first + o) ?first ?last).trans ?record
  case first => show first ≤ first + o; bv_omega
  case last => show first + o ≤ first + (size - 1); bv_omega
  case record => rw [rowInfo_slotRow, sectorRecord, add_sub_assoc]

/-- R12: the selector of a slot that is a quotient and a constant. -/
theorem selectorOfSlot_add (v n : Word) : selectorOfSlot (v + n) = BitVec.ofNat 5 (v.toNat + n.toNat) := by
  refine BitVec.eq_of_toNat_eq ?_
  rw [selectorOfSlot, BitVec.toNat_setWidth, BitVec.toNat_add, BitVec.toNat_ofNat]
  omega

theorem rowHolds_bank0MergedRow (hw : Params) (h : hw.legal = true) (a : Word) :
    rowHolds hw a.toNat bank0MergedRow = true ↔ hw.bank0Start + 0x10000 ≤ a ∧ a ≤ hw.bank0Start + 0x1FFFF := by
  obtain ⟨-, -, -, htop⟩ := legal_bounds hw h
  have hfirst : rowFirst hw bank0MergedRow = hw.bank0Start.toNat + 0x10000 := rfl
  have hlast : rowLast hw bank0MergedRow = hw.bank0Start.toNat + 0x1FFFF := rfl
  rw [rowHolds_iff, hfirst, hlast]
  bv_omega

end Sys2Proof.Machine
end

section
/-! The obligations of the resolver's branches. -/

open Sys2Proof Sys2Proof.Machine

/-- Settles O10: outside, the resolver's first branch; the bounds are the first byte of bank0 and the last of bank1. -/
theorem resolveOutsideRegionIsInvalid : Obligations.ResolveOutsideRegionIsInvalid := by
  have outside (hw : Params) (a : Word) (ha : a < hw.flashStart ∨ hw.flashEnd < a) : resolve hw a = invalidInfo :=
    if_pos ha
  refine ⟨outside, ?bounds, outside _ _ (by decide), outside _ _ (by decide), outside _ _ (by decide),
    outside _ _ (by decide)⟩
  case bounds =>
    intro hw hl
    obtain ⟨hstart, h1, hend, -⟩ := legal_bounds hw hl
    have hfirst : hw.flashStart = hw.bank0Start + 0 := hstart.trans (add_zero _).symm
    have hlast : hw.flashEnd = hw.bank1Start + 0x1FFFFF := by bv_omega
    rw [hfirst, hlast, resolve_in_bank0 hw hl 0 (by decide), resolve_in_bank1 hw hl 0x1FFFFF (by decide)]
    exact ⟨rfl, rfl⟩

/-- Settles O11: the quarter is a row of the table, which holds each of its bytes. -/
theorem resolveBank0SmallSector : Obligations.ResolveBank0SmallSector :=
  fun hw quarter o hl hq ho => resolve_slotRow hw hl (bank0_smallRow quarter hq) o ho rfl

/-- Settles O12: name 4 is a row of the table. -/
theorem resolveBank0MergedSector : Obligations.ResolveBank0MergedSector :=
  fun hw o hl hfirst hlast =>
    resolve_of_offset hw hl bank0MergedRow bank0_mergedRow o hfirst (Nat.le_of_lt_succ hlast)

/-- Settles O13: blocks 1 to 7 of bank0 are rows of the table. -/
theorem resolveBank0LargeSector : Obligations.ResolveBank0LargeSector :=
  fun hw block o hl h1 h7 ho =>
    resolve_slotRow hw hl (bank0_largeRow block (Nat.lt_succ_of_le h7) h1) o ho (selectorOfSlot_add block 4)

/-- Settles O14: bank1's quarters are the rows whose bounds are computed from `B1S_BASE`. -/
theorem resolveBank1SmallSector : Obligations.ResolveBank1SmallSector :=
  fun hw quarter o hl hq ho =>
    resolve_slotRow hw hl (bank1_smallRow quarter hq) o ho (selectorOfSlot_add quarter 0x10)

/-- Settles O15: name 0x10 is a row of the table, and not one of those that `B1S_BASE` moves. -/
theorem resolveBank1MergedSector : Obligations.ResolveBank1MergedSector :=
  fun hw o hl hfirst hlast =>
    resolve_of_offset hw hl bank1MergedRow bank1_mergedRow o hfirst (Nat.le_of_lt_succ hlast)

/-- Settles O16: blocks 1 to 7 of bank1 are rows of the table. -/
theorem resolveBank1LargeSector : Obligations.ResolveBank1LargeSector :=
  fun hw block o hl h1 h7 ho =>
    resolve_slotRow hw hl (bank1_largeRow block (Nat.lt_succ_of_le h7) h1) o ho (selectorOfSlot_add block 0x14)

/-- Settles O17: the 256KB blocks 4 to 7 of bank1 are rows of the table. -/
theorem resolveBank1ExtraLargeSector : Obligations.ResolveBank1ExtraLargeSector :=
  fun hw block o hl h4 h7 ho =>
    resolve_slotRow hw hl (bank1_extraLargeRow block (Nat.lt_succ_of_le h7) h4) o ho (selectorOfSlot_add block 8)

/-- Settles O23: an address resolves to the record of the row that holds it, and a name has one row. -/
theorem oneNameHasOneRecord : Obligations.OneNameHasOneRecord := by
  intro hw a b hl ha hb
  obtain ⟨r, hr, hra, ea⟩ := resolve_row hw hl a ha
  obtain ⟨r', hr', -, eb⟩ := resolve_row hw hl b hb
  rw [← rowHolds_bank0MergedRow hw hl, ea, eb]
  refine ⟨?record, ?inWindow, ?hasName⟩
  case record =>
    intro e
    rw [rows_of_one_name r hr r' hr' e]
  case inWindow =>
    intro e
    rwa [← rows_of_one_name r hr bank0MergedRow bank0_mergedRow e]
  case hasName =>
    intro hwindow
    rw [row_unique hw hl r bank0MergedRow hr bank0_mergedRow _ hra hwindow]
    rfl

/-- Settles O25: the response puts the sequencer back where it was, in `IDLE`. -/
theorem resolveCommandAnswers : Obligations.ResolveCommandAnswers := by
  intro s a hs
  rw [exec, execResolve, accept_idle _ s _ hs]
  simp [respond, goto, emit, ← hs]

end

section
/-! SUPPORT. The number NAME2NUM answers, by the three ranges of R131, and the whole state its two endings leave. -/

namespace Sys2Proof.Machine

/-- R12: `CtlIdx` undoes the cut to five bits of a word that fits in them. -/
theorem ctlIdx_setWidth (v : Word) (h : v ≤ 0x1F) : ctlIdx (v.setWidth 5) = v := by
  refine BitVec.eq_of_toNat_eq ?_
  rw [ctlIdx, BitVec.toNat_setWidth, BitVec.toNat_setWidth]
  bv_omega

/-- R131: the number of a name that has one; in each range the selector fits in five bits. -/
theorem selectorOfName_number (name : Word) (h : name ≤ 0x1B) :
    ∃ k, selectorOfName name = some k ∧
      ctlIdx k = if name ≤ 0xB then name else if name ≤ 0x17 then name + 4 else name - 0xC := by
  unfold selectorOfName
  by_cases hB : name ≤ 0xB
  · exact ⟨_, if_pos hB, by rw [if_pos hB, ctlIdx_setWidth _ (by bv_omega)]⟩
  rw [if_neg hB, if_neg hB]
  by_cases h17 : name ≤ 0x17
  · exact ⟨_, if_pos h17, by rw [if_pos h17, ctlIdx_setWidth _ (by bv_omega)]⟩
  · rw [if_neg h17, if_neg h17]
    exact ⟨_, if_pos h, ctlIdx_setWidth _ (by bv_omega)⟩

/-- R132: a name above 0x1B lies above all three ranges. -/
theorem selectorOfName_none (name : Word) (h : ¬ name ≤ 0x1B) : selectorOfName name = none := by
  have hB : ¬ name ≤ 0xB := by bv_omega
  have h17 : ¬ name ≤ 0x17 := by bv_omega
  rw [selectorOfName, if_neg hB, if_neg h17, if_neg h]

/-- R74: a response in `IDLE` writes the history alone. -/
theorem respond_emit_of_idle (p : Payload) (e : Event) (s : State) (h : s.seq = .idle) :
    respond p (emit e s) = { s with history := s.history ++ [e, .rsp p] } := by
  simp [respond, goto, emit, ← h]

/-- R175: what the halt of an accepting step leaves. -/
theorem takeHalt_emit (c : HaltCause) (e : Event) (s : State) :
    takeHalt c (emit e s) =
      { s with seq := .halted, haltCause := some c, history := s.history ++ [e, .halt c] } := by
  simp [takeHalt, emit]

end Sys2Proof.Machine
end

section
/-! The obligation of the sector index decoder (spec/41_sector_index_decoder.md). -/

open Sys2Proof Sys2Proof.Machine

/-- Settles O26: a name up to 0x1B has a selector, so the command responds; a name above has none, so it halts. -/
theorem name2numAnswersOrHalts : Obligations.Name2numAnswersOrHalts := by
  intro s name hs
  rw [exec, execName2num, accept_idle _ s _ hs]
  by_cases h : name ≤ 0x1B
  · obtain ⟨k, hk, hnumber⟩ := selectorOfName_number name h
    rw [if_pos h, hk, ← hnumber]
    exact congrArg _ (respond_emit_of_idle _ _ s hs)
  · rw [if_neg h, selectorOfName_none name h]
    exact congrArg _ (takeHalt_emit _ _ s)

end

section
/-! SUPPORT. The accepting step of ERASE, and the steps of a chain from an enabled state (spec/42_erase_sequencer.md R141 to R145; R152, R153, R155 for WRITE). -/

namespace Sys2Proof.Machine

/-! R141: the acceptance. -/

/-- R13, R79: no sector is named by the sentinel. -/
theorem row_name_valid : ∀ r ∈ sectorTable, r.name ≠ invalidName := by decide

/-- R141: an address of the region enters the chain, with the number of the row that holds it. -/
theorem exec_erase_inRegion (s : State) (a : Word) (hs : s.seq = .idle) (hl : s.hw.legal = true)
    (ha : inRegion s.hw a.toNat = true) :
    ∃ r ∈ sectorTable, rowHolds s.hw a.toNat r = true ∧ resolve s.hw a = rowInfo s.hw r ∧
      exec (.erase a) s =
        .next { s with
          seq := .erUnlock
          selR := some (ctlIdx r.selector)
          history := s.history ++ [.cmd (.erase a)] } := by
  obtain ⟨r, hr, hrow, e⟩ := resolve_row s.hw hl a ha
  refine ⟨r, hr, hrow, e, ?_⟩
  rw [exec, execErase, accept_idle _ s _ hs]
  have hname : (rowInfo s.hw r).sectorName ≠ invalidName := row_name_valid r hr
  simp only [emit_hw, e, if_neg hname]
  rfl

/-- R141: an address outside the region halts. -/
theorem exec_erase_outside (s : State) (a : Word) (hs : s.seq = .idle) (ha : inRegion s.hw a.toNat = false) :
    exec (.erase a) s = .next (takeHalt .eraseBadAddr (emit (.cmd (.erase a)) s)) := by
  rw [exec, execErase, accept_idle _ s _ hs]
  simp only [emit_hw, resolve_outside_region s.hw a ha]
  exact congrArg _ (if_pos rfl)

/-! The chain steps of an enabled state. -/

theorem step_of_enabled (s : State) (he : Enabled s) (hs : s.seq ≠ .idle) : step s = chainStep s :=
  step_chain s he.1 he.2 hs

/-- R142, R152: both unlock states make the same call. -/
theorem step_unlock (s : State) (he : Enabled s) (hs : s.seq = .erUnlock ∨ s.seq = .wrUnlock) :
    step s = awaitController s fun _ u =>
      goto (if s.seq = .erUnlock then .erClear else .wrClear) (ctlUnlock u) := by
  rcases hs with e | e <;> rw [step_of_enabled s he (by simp [e]), chainStep, e] <;> rfl

/-- R16, R57: `FLAG_MASK` clears every flag. -/
theorem clearedFlags_flagMask (flags : CtlFlags) : clearedFlags flagMask flags = ⟨false, false, false, false, false⟩ := by
  simp [clearedFlags, flagMask]

/-- R143, R153: what an answered flag clear leaves. -/
theorem goto_ctlClearFlags (q : Seq) (rest : List CtlReply) (s : State) :
    goto q (ctlClearFlags (setCtlReplies rest s)) =
      { s with
        seq := q
        ctlFlags := ⟨false, false, false, false, false⟩
        ctlReplies := rest
        history := s.history ++ [.clearFlags flagMask] } := by
  rw [ctlClearFlags, clearedFlags_flagMask]
  rfl

theorem step_erClear (s : State) (r : CtlReply) (rest : List CtlReply) (he : Enabled s) (hs : s.seq = .erClear)
    (hr : s.ctlReplies = r :: rest) : step s = .next (goto .erErase (ctlClearFlags (setCtlReplies rest s))) := by
  rw [step_of_enabled s he (by simp [hs]), chainStep, hs]
  exact stepErClear_answered s r rest hr

theorem step_wrClear (s : State) (r : CtlReply) (rest : List CtlReply) (he : Enabled s) (hs : s.seq = .wrClear)
    (hr : s.ctlReplies = r :: rest) :
    step s = .next (goto (if lenVal s = 0 then .wrLock else .wrProg) (ctlClearFlags (setCtlReplies rest s))) := by
  rw [step_of_enabled s he (by simp [hs]), chainStep, hs]
  exact stepWrClear_answered s r rest hr

theorem step_erErase (s : State) (he : Enabled s) (hs : s.seq = .erErase) : step s = stepErErase s := by
  rw [step_of_enabled s he (by simp [hs]), chainStep, hs]

/-- R145, R155: both lock states end the command in the same way. -/
theorem step_lock (s : State) (r : CtlReply) (rest : List CtlReply) (he : Enabled s) (hr : s.ctlReplies = r :: rest)
    (hs : s.seq = .erLock ∨ s.seq = .wrLock) :
    step s = .next (endCommand .none (ctlLock (setCtlReplies rest s))) := by
  rcases hs with e | e <;> rw [step_of_enabled s he (by simp [e]), chainStep, e]
  · exact stepErLock_answered s r rest hr
  · exact stepWrLock_answered s r rest hr

end Sys2Proof.Machine
end

section
/-! The obligations of ERASE's acceptance and of the steps that its chain shares with WRITE's. -/

open Sys2Proof Sys2Proof.Machine

/-- Settles O27: an address of the region lies in a row of the table, which has a valid name; outside, the sentinel halts. -/
theorem eraseAcceptanceLatchesOrHalts : Obligations.EraseAcceptanceLatchesOrHalts := by
  refine fun s a hs => ⟨fun hl ha => ?inside, fun ha => ?outside⟩
  case inside =>
    obtain ⟨r, hr, hrow, e, hx⟩ := exec_erase_inRegion s a hs hl ha
    exact ⟨r, hr, hrow, by rw [e]; rfl, hx⟩
  case outside => rw [exec_erase_outside s a hs ha, takeHalt_emit]

/-- Settles O31: the step waits for its call, and an answered unlock opens the bracket. -/
theorem unlockStepOpensTheBracket : Obligations.UnlockStepOpensTheBracket := by
  intro s he hs
  rw [step_unlock s he hs]
  cases hr : s.ctlReplies with
  | nil => exact awaitController_waits s _ hr
  | cons r rest => exact awaitController_answered s _ r rest hr

/-- Settles O32: the mask holds all five flags, and WRITE goes on by its length latch. -/
theorem clearStepClearsTheFiveFlags : Obligations.ClearStepClearsTheFiveFlags := by
  refine fun s r rest he hr => ⟨fun hs => ?erase, fun n hs hn => ?write⟩
  case erase => rw [step_erClear s r rest he hs hr, goto_ctlClearFlags]; rfl
  case write => rw [step_wrClear s r rest he hs hr, goto_ctlClearFlags, lenVal_of_some s n hn]; rfl

/-- Settles O33, by the status of the answer. -/
theorem eraseStepTestsTheStatus : Obligations.EraseStepTestsTheStatus := by
  intro s n r rest he hs hn hr
  by_cases hy : replyStatus r s = .ready
  · refine ⟨_, (step_erErase s he hs).trans (stepErErase_ready s r rest hr hy), ?_⟩
    simp [hy, selVal_of_some s n hn, he.2]
  · refine ⟨_, (step_erErase s he hs).trans (stepErErase_failed s r rest hr hy), ?_⟩
    simp [hy, selVal_of_some s n hn, he.2]

/-- Settles O35: the lock, and then the command's end. -/
theorem lockStepEndsTheCommand : Obligations.LockStepEndsTheCommand := by
  intro s r rest he hr hs
  refine ⟨_, step_lock s r rest he hr hs, ?_⟩
  simp [he.2]

end

section
/-! SUPPORT. The run of an ERASE up to its erase, which both of its runs share (R140 to R143), and what the answer to the erase leaves. -/

namespace Sys2Proof.Machine

/-- R70, R71 (log entry 1). -/
theorem decode_encode_erase (a : Word) : decode (encode (.erase a)) = .ok (.erase a) := by
  rw [encode, decode_opByte, Instr.opCode, decodeFields_erase]
  simp only [encodeFields, bytes32, decodeWord, word32_of_bytes]

/-- R142, R143: the unlock and the flag clear answered, an ERASE is at its erase. -/
theorem run_erUnlock_erClear (s : State) (r r' : CtlReply) (rest : List CtlReply) (he : Enabled s)
    (hs : s.seq = .erUnlock) (hr : s.ctlReplies = r :: r' :: rest) :
    runSteps 2 s =
      .next { s with
        seq := .erErase
        ctlUnlocked := true
        ctlFlags := ⟨false, false, false, false, false⟩
        ctlReplies := rest
        history := s.history ++ [.unlock, .clearFlags flagMask] } := by
  have hunlock := (step_unlock s he (.inl hs)).trans (awaitController_answered s _ r (r' :: rest) hr)
  rw [if_pos hs] at hunlock
  have hclear : step (goto .erClear (ctlUnlock (setCtlReplies (r' :: rest) s))) = _ :=
    step_erClear _ r' rest he rfl rfl
  rw [runSteps_next 1 s _ hunlock, runSteps_next 0 _ _ hclear, runSteps_zero, goto_ctlClearFlags]
  simp [goto, ctlUnlock, emit, setCtlReplies]

/-- R140 to R143: the state from which an ERASE of `a`, begun in `s`, issues its erase of the sector number `n`. -/
def atErase (s : State) (a n : Word) (offers : List (List Byte)) (rest : List CtlReply) : State :=
  { s with
    seq := .erErase
    selR := some n
    ctlUnlocked := true
    ctlFlags := ⟨false, false, false, false, false⟩
    offers := offers
    ctlReplies := rest
    history := s.history ++ [.cmd (.erase a), .unlock, .clearFlags flagMask] }

theorem enabled_atErase (s : State) (a n : Word) (offers : List (List Byte)) (rest : List CtlReply) (he : Enabled s) :
    Enabled (atErase s a n offers rest) := he

@[simp] theorem atErase_offers (s : State) (a n : Word) (offers : List (List Byte)) (rest : List CtlReply) :
    (atErase s a n offers rest).offers = offers := rfl
@[simp] theorem atErase_ctlUnlocked (s : State) (a n : Word) (offers : List (List Byte)) (rest : List CtlReply) :
    (atErase s a n offers rest).ctlUnlocked = true := rfl
@[simp] theorem atErase_selR (s : State) (a n : Word) (offers : List (List Byte)) (rest : List CtlReply) :
    (atErase s a n offers rest).selR = some n := rfl
@[simp] theorem selVal_atErase (s : State) (a n : Word) (offers : List (List Byte)) (rest : List CtlReply) :
    selVal (atErase s a n offers rest) = n := rfl
@[simp] theorem atErase_history (s : State) (a n : Word) (offers : List (List Byte)) (rest : List CtlReply) :
    (atErase s a n offers rest).history = s.history ++ [.cmd (.erase a), .unlock, .clearFlags flagMask] := rfl

/-- R141 to R143: the command accepted, the unlock and the flag clear answered, an ERASE is at its erase. -/
theorem run_to_atErase (s : State) (a : Word) (offers : List (List Byte)) (r1 r2 : CtlReply) (rest : List CtlReply)
    (he : Enabled s) (hs : s.seq = .idle) (ha : inRegion s.hw a.toNat = true)
    (ho : s.offers = encode (.erase a) :: offers) (hr : s.ctlReplies = r1 :: r2 :: rest) :
    ∃ r ∈ sectorTable, rowHolds s.hw a.toNat r = true ∧
      runSteps 3 s = .next (atErase s a (ctlIdx r.selector) offers rest) := by
  obtain ⟨r, hmem, hrow, -, hx⟩ := exec_erase_inRegion { s with offers := offers } a hs he.1 ha
  refine ⟨r, hmem, hrow, ?_⟩
  have haccept := (step_command s _ _ offers he.1 he.2 hs ho (decode_encode_erase a)).trans hx
  rw [runSteps_next 2 s _ haccept]
  refine Eq.trans (run_erUnlock_erClear _ r1 r2 rest he rfl hr) ?_
  simp [atErase]

theorem replyStatus_of_answersReady (s : State) (r : CtlReply) (hu : s.ctlUnlocked = true) (h : AnswersReady r) :
    replyStatus r s = .ready := by
  rcases h with rfl | ⟨flags, cells, rfl⟩
  · exact (replyStatus_reference s).mpr hu
  · rfl

/-- R144, R145: an erase answered `Ready`, then the lock. -/
theorem run_erase_ready (s : State) (n : Word) (r r' : CtlReply) (rest : List CtlReply) (he : Enabled s)
    (hs : s.seq = .erErase) (hn : s.selR = some n) (hr : s.ctlReplies = r :: r' :: rest)
    (hy : replyStatus r s = .ready) :
    runSteps 2 s = .next (endCommand .none (ctlLock (setCtlReplies rest
      (goto .erLock (ctlErase n r (setCtlReplies (r' :: rest) s)))))) := by
  have herase := (step_erErase s he hs).trans (stepErErase_ready s r (r' :: rest) hr hy)
  rw [selVal_of_some s n hn] at herase
  have hlock := step_lock (goto .erLock (ctlErase n r (setCtlReplies (r' :: rest) s))) r' rest
    (by simpa [Enabled] using he) (by simp) (.inl rfl)
  rw [runSteps_next 1 s _ herase, runSteps_next 0 _ _ hlock, runSteps_zero]

/-- R53: a row's number selects the bytes of that row. -/
theorem inSector_ctlIdx (hw : Params) (r : SectorRow) (hr : r ∈ sectorTable) (x : Nat) :
    inSector hw (ctlIdx r.selector) x = rowHolds hw x r := by
  simp only [inSector, rowOfNumber_ctlIdx r hr]

end Sys2Proof.Machine
end

section
/-! The obligations of whole ERASE commands (spec/42_erase_sequencer.md, the three event sequences). -/

open Sys2Proof Sys2Proof.Machine

/-- Settles O38: three steps to the erase, two from there; the flash is as the erase leaves it. -/
theorem eraseRunSucceeds : Obligations.EraseRunSucceeds := by
  intro s a offers r1 r2 r3 r4 rest he hs ha ho hr h3
  obtain ⟨r, hmem, hrow, hrun⟩ := run_to_atErase s a offers r1 r2 (r3 :: r4 :: rest) he hs ha ho hr
  have hat := enabled_atErase s a (ctlIdx r.selector) offers (r3 :: r4 :: rest) he
  have hready := replyStatus_of_answersReady (atErase s a (ctlIdx r.selector) offers (r3 :: r4 :: rest)) r3 rfl h3
  have hend := run_erase_ready _ (ctlIdx r.selector) r3 r4 rest hat rfl rfl rfl hready
  refine ⟨_, r, hmem, hrow, (runSteps_add 3 2 s _ hrun).trans hend, rfl, ⟨rfl, rfl, rfl, rfl, rfl, rfl⟩, rfl, ?offers,
    rfl, ?history, fun x hx => ?others, ?contents⟩
  case offers => simp
  case history => simp [hready]
  case others =>
    simp only [endCommand_flash, ctlLock_flash, setCtlReplies_flash, goto_flash]
    exact readCell_ctlErase_other _ r3 _ x ((inSector_ctlIdx s.hw r hmem x).trans hx)
  case contents =>
    rintro rfl x hx
    simp only [endCommand_flash, ctlLock_flash, setCtlReplies_flash, goto_flash]
    rw [ctlErase_reference_flash _ _ rfl]
    exact (readCell_erasedSector s.hw s.flash r hmem x).trans (if_pos hx)

/-- Settles O39: three steps to the erase, and its answer halts. -/
theorem eraseRunFails : Obligations.EraseRunFails := by
  intro s a offers st r1 r2 r3 rest he hs ha ho hr ⟨hst, flags, cells, h3⟩
  obtain ⟨r, hmem, hrow, hrun⟩ := run_to_atErase s a offers r1 r2 (r3 :: rest) he hs ha ho hr
  have hstatus : replyStatus r3 (atErase s a (ctlIdx r.selector) offers (r3 :: rest)) = st := by rw [h3]; rfl
  have hat := enabled_atErase s a (ctlIdx r.selector) offers (r3 :: rest) he
  have hhalt := (step_erErase _ hat rfl).trans (stepErErase_failed _ r3 rest rfl (hstatus.trans_ne hst))
  refine ⟨_, r, hmem, hrow, (runSteps_add 3 1 s _ hrun).trans (runSteps_next 0 _ _ hhalt), rfl, rfl, ?unlocked, ?latch,
    ?history⟩
  case unlocked => simp
  case latch => simp
  case history => simp [hstatus]

end

section
/-! SUPPORT. The accepting step of WRITE and its program step (spec/43_byte_program_sequencer.md R151, R154). -/

namespace Sys2Proof.Machine

/-- R151: with enough data, in `IDLE`, the latches are loaded and the chain is entered. -/
theorem exec_write (s : State) (a : Word) (n : Half) (d : List Byte) (hs : s.seq = .idle) (hn : n.toNat ≤ d.length) :
    exec (.write a n d) s =
      .next { s with
        seq := .wrUnlock
        cur := some a
        lenR := some n
        idx := some 0
        dbuf := some (d.take n.toNat)
        history := s.history ++ [.cmd (.write a n d)] } :=
  (if_pos hn).trans (accept_idle _ s _ hs)

theorem step_wrProg (s : State) (he : Enabled s) (hs : s.seq = .wrProg) : step s = stepWrProg s := by
  rw [step_of_enabled s he (by simp [hs]), chainStep, hs]

/-- R154: the 16-bit index one on is below the length just when the numbers are, since it cannot wrap. -/
theorem index_succ_lt_iff (i n : Half) (h : i.toNat < n.toNat) : i + 1 < n ↔ i.toNat + 1 < n.toNat := by
  rw [BitVec.lt_def, toNat_index_succ i n h]

end Sys2Proof.Machine
end

section
/-! The obligations of WRITE's acceptance and of its program step. -/

open Sys2Proof Sys2Proof.Machine

/-- Settles O28: the only test is that of the data's length. -/
theorem writeLoadsItsLatches : Obligations.WriteLoadsItsLatches := exec_write

/-- Settles O34, by the status of the answer. -/
theorem programStepTestsTheStatus : Obligations.ProgramStepTestsTheStatus := by
  intro s a n i d v r rest he hs ha hn hi hd hlt hv hr
  have hcur := curVal_of_some s a ha
  have hbyte := dataByte_of_some s d i v hd hi hv
  rw [step_wrProg s he hs]
  by_cases hy : replyStatus r s = .ready
  · have hstep := stepWrProg_ready s r rest hr hy
    rw [idxVal_of_some s i hi, lenVal_of_some s n hn] at hstep
    simp only [hcur, hbyte, index_succ_lt_iff i n hlt] at hstep
    refine ⟨_, hstep, ?_⟩
    simp [hy, he.2]
  · refine ⟨_, stepWrProg_failed s r rest hr hy, ?_⟩
    simp [hy, hcur, hbyte, ha, hi, he.2]

end

section
/-! SUPPORT. The run of a WRITE up to its first byte, which all of its runs share (R150 to R153). -/

namespace Sys2Proof.Machine

/-- R70, R71 (log entry 1), R73. -/
theorem decode_encode_write (a : Word) (n : Half) (d : List Byte) (hn : n.toNat ≤ d.length) :
    decode (encode (.write a n d)) = .ok (.write a n d) := by
  rw [encode, decode_opByte, Instr.opCode, decodeFields_write]
  simp only [encodeFields, bytes32, bytes16, List.cons_append, List.nil_append, decodeWrite, word32_of_bytes,
    half16_of_bytes]
  exact if_pos hn

/-- R152, R153: the unlock and the flag clear answered, a WRITE is at its first byte or, with no byte, at its lock. -/
theorem run_wrUnlock_wrClear (s : State) (n : Half) (r r' : CtlReply) (rest : List CtlReply) (he : Enabled s)
    (hs : s.seq = .wrUnlock) (hn : s.lenR = some n) (hr : s.ctlReplies = r :: r' :: rest) :
    runSteps 2 s =
      .next { s with
        seq := if n = 0 then .wrLock else .wrProg
        ctlUnlocked := true
        ctlFlags := ⟨false, false, false, false, false⟩
        ctlReplies := rest
        history := s.history ++ [.unlock, .clearFlags flagMask] } := by
  have hunlock := (step_unlock s he (.inr hs)).trans (awaitController_answered s _ r (r' :: rest) hr)
  rw [if_neg (by simp [hs])] at hunlock
  have hclear : step (goto .wrClear (ctlUnlock (setCtlReplies (r' :: rest) s))) = _ :=
    step_wrClear _ r' rest he rfl rfl
  rw [lenVal_of_some (goto .wrClear (ctlUnlock (setCtlReplies (r' :: rest) s))) n hn] at hclear
  rw [runSteps_next 1 s _ hunlock, runSteps_next 0 _ _ hclear, runSteps_zero, goto_ctlClearFlags]
  simp [goto, ctlUnlock, emit, setCtlReplies]

/-- R150 to R153: the state in which a WRITE of `n` bytes of `d` to `a`, begun in `s`, has cleared the flags and programmed no byte. -/
def atFirstByte (s : State) (a : Word) (n : Half) (d : List Byte) (offers : List (List Byte)) (rest : List CtlReply) :
    State :=
  { s with
    seq := if n = 0 then .wrLock else .wrProg
    cur := some a
    lenR := some n
    idx := some 0
    dbuf := some (d.take n.toNat)
    ctlUnlocked := true
    ctlFlags := ⟨false, false, false, false, false⟩
    offers := offers
    ctlReplies := rest
    history := s.history ++ [.cmd (.write a n d), .unlock, .clearFlags flagMask] }

/-- R151 to R153: the command accepted, the unlock and the flag clear answered. -/
theorem run_to_atFirstByte (s : State) (a : Word) (n : Half) (d : List Byte) (offers : List (List Byte))
    (r1 r2 : CtlReply) (rest : List CtlReply) (he : Enabled s) (hs : s.seq = .idle) (hn : n.toNat ≤ d.length)
    (ho : s.offers = encode (.write a n d) :: offers) (hr : s.ctlReplies = r1 :: r2 :: rest) :
    runSteps 3 s = .next (atFirstByte s a n d offers rest) := by
  have haccept := (step_command s _ _ offers he.1 he.2 hs ho (decode_encode_write a n d hn)).trans
    (exec_write { s with offers := offers } a n d hs hn)
  rw [runSteps_next 2 s _ haccept]
  refine Eq.trans (run_wrUnlock_wrClear _ n r1 r2 rest he rfl rfl hr) ?_
  simp [atFirstByte]

end Sys2Proof.Machine
end

section
/-! The obligation of a WRITE without a byte (spec/43_byte_program_sequencer.md R157). -/

open Sys2Proof Sys2Proof.Machine

/-- Settles O40: the length test sends the chain from the flag clear to the lock. -/
theorem writeOfLengthZeroRunsTheBracket : Obligations.WriteOfLengthZeroRunsTheBracket := by
  intro s a d offers r1 r2 r3 rest he hs ho hr
  have hrun := run_to_atFirstByte s a 0 d offers r1 r2 (r3 :: rest) he hs (Nat.zero_le _) ho hr
  have hlock := step_lock (atFirstByte s a 0 d offers (r3 :: rest)) r3 rest he rfl (.inr rfl)
  refine ⟨_, (runSteps_add 3 1 s _ hrun).trans (runSteps_next 0 _ _ hlock), rfl, ?history, rfl, rfl, rfl⟩
  case history => simp [atFirstByte]

end

section
/-! SUPPORT. The program loop of a WRITE (R154, R158): what holds once its first `i` bytes are programmed, and that each program answered `Ready` makes it hold of one byte more. -/

namespace Sys2Proof.Machine

/-! Addresses and events, one byte on. -/

/-- R61: `cur` and `idx` count on in their own widths. -/
theorem offset_succ {w : Nat} (i : Nat) : BitVec.ofNat w (i + 1) = BitVec.ofNat w i + 1 := BitVec.ofNat_add i 1

/-- R61: the addresses of one WRITE, fewer than 2^16 of them, differ. -/
theorem address_ne (a : Word) (j k : Nat) (hj : j < 2 ^ 16) (hk : k < 2 ^ 16) (h : j ≠ k) :
    (a + BitVec.ofNat 32 j).toNat ≠ (a + BitVec.ofNat 32 k).toNat := by
  simp only [BitVec.toNat_add, BitVec.toNat_ofNat]
  omega

theorem programEvents_concat (a : Word) (l : List Byte) (v : Byte) :
    programEvents a (l ++ [v]) = programEvents a l ++ [.program (a + BitVec.ofNat 32 l.length) v .ready] := by
  induction l generalizing a with
  | nil => simp [programEvents]
  | cons w rest ih =>
    have hsucc : a + 1 + BitVec.ofNat 32 rest.length = a + BitVec.ofNat 32 (rest.length + 1) := by
      rw [offset_succ, BitVec.add_assoc, BitVec.add_comm 1]
    simp only [List.cons_append, programEvents, ih, hsucc, List.length_cons]

/-- R158: the events of one byte more. -/
theorem programEvents_take_succ (a : Word) (d : List Byte) (i : Nat) (v : Byte) (hv : d[i]? = some v) :
    programEvents a (d.take (i + 1)) =
      programEvents a (d.take i) ++ [.program (a + BitVec.ofNat 32 i) v .ready] := by
  have hlt : i < d.length := (List.getElem?_eq_some_iff.mp hv).1
  rw [List.take_add_one, hv, Option.toList_some, programEvents_concat, List.length_take_of_le hlt.le]

/-! The flash. -/

/-- R67 (log entry 15): the contents `m'` that the first `i` programs of `d` from `a` on, answered by `replies`, leave of `m`: no byte but theirs differs, and one that the reference controller answered is old AND new. -/
structure FlashProgrammed (hw : Params) (a : Word) (d : List Byte) (replies : List CtlReply) (m : Memory) (i : Nat)
    (m' : Memory) : Prop where
  others : ∀ x : Nat, (∀ k < i, x ≠ (a + BitVec.ofNat 32 k).toNat) → readCell m' x = readCell m x
  contents : ∀ (k : Nat) (v : Byte), k < i → replies[k]? = some .reference → d[k]? = some v →
    inRegion hw (a + BitVec.ofNat 32 k).toNat = true →
    readCell m' (a + BitVec.ofNat 32 k).toNat = readCell m (a + BitVec.ofNat 32 k).toNat &&& v

theorem flashProgrammed_zero (hw : Params) (a : Word) (d : List Byte) (replies : List CtlReply) (m : Memory) :
    FlashProgrammed hw a d replies m 0 m where
  others _ _ := rfl
  contents _ _ hk := absurd hk (Nat.not_lt_zero _)

/-- One program more, whatever its status: its byte is none of those before it. -/
theorem FlashProgrammed.succ {a : Word} {d : List Byte} {replies : List CtlReply} {m : Memory} {i : Nat} {s : State}
    {v : Byte} {r : CtlReply} (h : FlashProgrammed s.hw a d replies m i s.flash) (hi : i < 2 ^ 16)
    (hu : s.ctlUnlocked = true) (hr : replies[i]? = some r) (hv : d[i]? = some v) :
    FlashProgrammed s.hw a d replies m (i + 1) (ctlProgram (a + BitVec.ofNat 32 i) v r s).flash where
  others x hx := by
    rw [readCell_ctlProgram_other _ v r s x (hx i i.lt_succ_self)]
    exact h.others x fun k hk => hx k (hk.trans i.lt_succ_self)
  contents k w hk hrk hwk hin := by
    rcases Nat.lt_succ_iff_lt_or_eq.mp hk with hlt | rfl
    · rw [readCell_ctlProgram_other _ v r s _ (address_ne a k i (hlt.trans hi) hi hlt.ne)]
      exact h.contents k w hlt hrk hwk hin
    · obtain rfl : r = .reference := Option.some.inj (hr.symm.trans hrk)
      obtain rfl : v = w := Option.some.inj (hv.symm.trans hwk)
      rw [ctlProgram_reference_flash _ v s hu, readCell_programmedByte s.hw _ v s.flash hin, if_pos rfl]
      rw [h.others _ fun j hj => address_ne a k j hi (hj.trans hi) hj.ne']

/-! The loop. -/

/-- R154, R158: `t` is the state in which a WRITE of `n` bytes of `d` to `a` has programmed its first `i` bytes, `s` being the one in which it had programmed none. -/
structure BytesProgrammed (s : State) (a : Word) (n : Half) (d : List Byte) (i : Nat) (t : State) : Prop where
  enabled : Enabled t
  seq : t.seq = if i < n.toNat then .wrProg else .wrLock
  cur : t.cur = some (a + BitVec.ofNat 32 i)
  lenR : t.lenR = some n
  idx : t.idx = some (BitVec.ofNat 16 i)
  dbuf : t.dbuf = some (d.take n.toNat)
  unlocked : t.ctlUnlocked = true
  hw : t.hw = s.hw
  offers : t.offers = s.offers
  ctlReplies : t.ctlReplies = s.ctlReplies.drop i
  history : t.history = s.history ++ programEvents a (d.take i)
  flash : FlashProgrammed s.hw a d s.ctlReplies s.flash i t.flash

theorem bytesProgrammed_zero (s : State) (a : Word) (n : Half) (d : List Byte) (offers : List (List Byte))
    (rest : List CtlReply) (he : Enabled s) :
    BytesProgrammed (atFirstByte s a n d offers rest) a n d 0 (atFirstByte s a n d offers rest) where
  enabled := he
  seq := by
    have hzero : n = 0 ↔ ¬ 0 < n.toNat := by bv_omega
    simp only [atFirstByte, hzero, ite_not]
  cur := by simp [atFirstByte]
  lenR := rfl
  idx := rfl
  dbuf := rfl
  unlocked := rfl
  hw := rfl
  offers := rfl
  ctlReplies := rfl
  history := by simp [programEvents]
  flash := flashProgrammed_zero _ _ _ _ _

/-- R154: the program of byte `i` has the next answer, and touches its own byte; `Ready` makes it one byte more, anything else halts there. -/
theorem BytesProgrammed.program_step {s t : State} {a : Word} {n : Half} {d : List Byte} {i : Nat} {v : Byte}
    {r : CtlReply} (h : BytesProgrammed s a n d i t) (hi : i < n.toNat) (hv : d[i]? = some v)
    (hr : s.ctlReplies[i]? = some r) :
    ∃ u, step t = .next u ∧ FlashProgrammed s.hw a d s.ctlReplies s.flash (i + 1) u.flash ∧
      (replyStatus r t = .ready → BytesProgrammed s a n d (i + 1) u) ∧
      (replyStatus r t ≠ .ready →
        u.seq = .halted ∧ u.haltCause = some .programFail ∧ u.ctlUnlocked = true ∧
        u.cur = some (a + BitVec.ofNat 32 i) ∧ u.idx = some (BitVec.ofNat 16 i) ∧
        u.lenR = some n ∧ u.dbuf = some (d.take n.toNat) ∧
        u.history = t.history ++ [.program (a + BitVec.ofNat 32 i) v (replyStatus r t), .halt .programFail]) := by
  have hbound : i < 2 ^ 16 := hi.trans n.isLt
  have hidx : (BitVec.ofNat 16 i).toNat = i := Nat.mod_eq_of_lt hbound
  have hbyte : (d.take n.toNat)[(BitVec.ofNat 16 i).toNat]? = some v := by
    rw [hidx, List.getElem?_take_of_lt hi, hv]
  have hreply : t.ctlReplies = r :: s.ctlReplies.drop (i + 1) := by
    rw [h.ctlReplies, List.drop_eq_getElem?_toList_append, hr, Option.toList_some, List.singleton_append]
  have hseq : t.seq = .wrProg := h.seq.trans (if_pos hi)
  obtain ⟨u, hstep, hready, hfailed, hhw, hlen, -, hdbuf, -, hunlocked, hrest, -, hoffers, hreset⟩ :=
    programStepTestsTheStatus t _ n _ _ v r _ h.enabled hseq h.cur h.lenR h.idx h.dbuf (hidx.trans_lt hi) hbyte hreply
  have hflash : FlashProgrammed s.hw a d s.ctlReplies s.flash (i + 1) u.flash := by
    rw [(stepWrProg_effect t u r _ hreply ((step_wrProg t h.enabled hseq).symm.trans hstep)).1,
      curVal_of_some t _ h.cur, dataByte_of_some t _ _ v h.dbuf h.idx hbyte, ← h.hw]
    exact (h.hw ▸ h.flash).succ hbound h.unlocked hr hv
  refine ⟨u, hstep, hflash, fun hy => ?ready, fun hy => ?failed⟩
  case ready =>
    obtain ⟨hcur', hidx', hseq', -, hhistory⟩ := hready hy
    exact {
      enabled := ⟨hhw ▸ h.enabled.1, hreset⟩
      seq := by rw [hseq', hidx]
      cur := by rw [hcur', offset_succ, BitVec.add_assoc]
      lenR := hlen.trans h.lenR
      idx := by rw [hidx', offset_succ]
      dbuf := hdbuf.trans h.dbuf
      unlocked := hunlocked.trans h.unlocked
      hw := hhw.trans h.hw
      offers := hoffers.trans h.offers
      ctlReplies := hrest
      history := by rw [hhistory, h.history, programEvents_take_succ a d i v hv, List.append_assoc]
      flash := hflash }
  case failed =>
    obtain ⟨hcur', hidx', hseq', hcause, hhistory⟩ := hfailed hy
    exact ⟨hseq', hcause, hunlocked.trans h.unlocked, hcur', hidx', hlen.trans h.lenR, hdbuf.trans h.dbuf, hhistory⟩

/-- R154: the first `i` programs answered `Ready`, one step a byte. -/
theorem run_programs (s : State) (a : Word) (n : Half) (d : List Byte) (i : Nat) (h : BytesProgrammed s a n d 0 s)
    (hn : n.toNat ≤ d.length) (hi : i ≤ n.toNat)
    (hready : ∀ k < i, ∃ r, s.ctlReplies[k]? = some r ∧ AnswersReady r) :
    ∃ t, runSteps i s = .next t ∧ BytesProgrammed s a n d i t := by
  induction i with
  | zero => exact ⟨s, rfl, h⟩
  | succ i ih =>
    obtain ⟨t, hrun, ht⟩ := ih (Nat.le_of_succ_le hi) fun k hk => hready k (hk.trans i.lt_succ_self)
    obtain ⟨r, hr, hanswer⟩ := hready i i.lt_succ_self
    have hv : d[i]? = some d[i] := List.getElem?_eq_getElem (hi.trans hn)
    obtain ⟨u, hstep, -, hnext, -⟩ := ht.program_step hi hv hr
    exact ⟨u, (runSteps_add i 1 s t hrun).trans (runSteps_next 0 t u hstep),
      hnext (replyStatus_of_answersReady t r ht.unlocked hanswer)⟩

/-- R150 to R154: a WRITE from its acceptance until the programs that `programs` answers are done. -/
theorem run_to_byte (s : State) (a : Word) (n : Half) (d : List Byte) (offers : List (List Byte)) (r1 r2 : CtlReply)
    (programs rest : List CtlReply) (he : Enabled s) (hs : s.seq = .idle) (hn : n.toNat ≤ d.length)
    (ho : s.offers = encode (.write a n d) :: offers) (hr : s.ctlReplies = r1 :: r2 :: (programs ++ rest))
    (hlen : programs.length ≤ n.toNat) (hready : ∀ r ∈ programs, AnswersReady r) :
    ∃ t, runSteps (programs.length + 3) s = .next t ∧
      BytesProgrammed (atFirstByte s a n d offers (programs ++ rest)) a n d programs.length t := by
  have hfirst := run_to_atFirstByte s a n d offers r1 r2 (programs ++ rest) he hs hn ho hr
  rw [Nat.add_comm, runSteps_add 3 _ s _ hfirst]
  refine run_programs _ a n d _ (bytesProgrammed_zero s a n d offers _ he) hn hlen fun k hk => ?_
  exact ⟨programs[k], (List.getElem?_append_left hk).trans (List.getElem?_eq_getElem hk),
    hready _ (List.getElem_mem hk)⟩

end Sys2Proof.Machine
end

section
/-! The obligations of whole WRITE commands (spec/43_byte_program_sequencer.md, the event sequences of one WRITE). -/

open Sys2Proof Sys2Proof.Machine

/-- Settles O41: three steps to the first byte, one a byte, and the lock, which leaves the flash as the programs left it. -/
theorem writeRunSucceeds : Obligations.WriteRunSucceeds := by
  intro s a n d offers r1 r2 r4 programs rest he hs hn ho hr hlen hready
  obtain ⟨t, hrun, ht⟩ := run_to_byte s a n d offers r1 r2 programs (r4 :: rest) he hs hn ho hr hlen.le hready
  rw [hlen] at hrun ht
  have hreply : t.ctlReplies = r4 :: rest := ht.ctlReplies.trans (List.drop_left' hlen)
  have hlock := step_lock t r4 rest ht.enabled hreply (.inr (ht.seq.trans (if_neg (lt_irrefl _))))
  refine ⟨_, (runSteps_add _ 1 s t hrun).trans (runSteps_next 0 t _ hlock), rfl, ⟨rfl, rfl, rfl, rfl, rfl, rfl⟩, rfl,
    ht.offers, rfl, ?history, ht.flash.others, ?contents⟩
  case history => simp [ht.history, atFirstByte]
  case contents =>
    intro k v hk hv hin
    have hlt : k < programs.length := (List.getElem?_eq_some_iff.mp hk).1
    exact ht.flash.contents k v (hlen ▸ hlt) ((List.getElem?_append_left hlt).trans hk) hv hin

/-- Settles O42: the first `i` programs are answered `Ready`, and the answer to the next halts. -/
theorem writeRunFailsAtAByte : Obligations.WriteRunFailsAtAByte := by
  intro s a n d v offers st r1 r2 r programs rest he hs hn ho hr hlen hready hfail hv
  obtain ⟨t, hrun, ht⟩ := run_to_byte s a n d offers r1 r2 programs (r :: rest) he hs hn ho hr hlen.le hready
  obtain ⟨hst, flags, cells, rfl⟩ := hfail
  have hnext : (programs ++ .scripted st flags cells :: rest)[programs.length]? = some (.scripted st flags cells) := by
    simp
  obtain ⟨u, hstep, hflash, -, hhalt⟩ := ht.program_step hlen hv hnext
  obtain ⟨hseq, hcause, hunlocked, hcur, hidx, hlenR, hdbuf, hhistory⟩ := hhalt hst
  refine ⟨u, (runSteps_add _ 1 s t hrun).trans (runSteps_next 0 t u hstep), hseq, hcause, hunlocked, hcur, hidx, hlenR,
    hdbuf, ?history, fun x hx => ?others, ?contents⟩
  case history => rw [hhistory, ht.history]; rfl
  case others => exact hflash.others x fun k hk => hx k (Nat.lt_succ_iff.mp hk)
  case contents =>
    intro k w hk hw hin
    have hlt : k < programs.length := (List.getElem?_eq_some_iff.mp hk).1
    exact hflash.contents k w (hlt.trans (Nat.lt_succ_self _)) ((List.getElem?_append_left hlt).trans hk) hw hin

end

section
/-! SUPPORT. The accepting step of READ and its read step (spec/44_byte_read.md R161, R162). -/

namespace Sys2Proof.Machine

/-- R161: of a nonzero length, in `IDLE`, the latches are loaded and the loop is entered. -/
theorem exec_read (s : State) (a : Word) (n : Half) (hs : s.seq = .idle) (hn : n ≠ 0) :
    exec (.read a n) s =
      .next { s with
        seq := .rdByte
        cur := some a
        lenR := some n
        idx := some 0
        obuf := some []
        history := s.history ++ [.cmd (.read a n)] } := by
  rw [exec, execRead, accept_idle _ s _ hs]
  exact congrArg _ (if_neg hn)

/-- R161: of length 0, in `IDLE`, the response at once. -/
theorem exec_read_zero (s : State) (a : Word) (hs : s.seq = .idle) :
    exec (.read a 0) s = .next (endCommand (.bytes []) (emit (.cmd (.read a 0)) s)) := by
  rw [exec, execRead, accept_idle _ s _ hs]
  rfl

theorem step_rdByte (s : State) (he : Enabled s) (hs : s.seq = .rdByte) : step s = stepRdByte s := by
  rw [step_of_enabled s he (by simp [hs]), chainStep, hs]

end Sys2Proof.Machine
end

section
/-! The obligations of READ's acceptance and of its read step. -/

open Sys2Proof Sys2Proof.Machine

/-- Settles O29, by the length. -/
theorem readAcceptanceLoadsOrAnswers : Obligations.ReadAcceptanceLoadsOrAnswers := by
  refine fun s a n hs => ⟨exec_read s a n hs, ?zero⟩
  rintro rfl
  refine ⟨_, exec_read_zero s a hs, ?_⟩
  simp

/-- Settles O36, by whether bytes remain after this one. -/
theorem readStepAppendsTheByte : Obligations.ReadStepAppendsTheByte := by
  intro s a n i o r rest he hs ha hn hi ho hlt hr
  have hcur := curVal_of_some s a ha
  have hobuf := obufVal_of_some s o ho
  have hmore : idxVal s + 1 < lenVal s ↔ i.toNat + 1 < n.toNat := by
    rw [idxVal_of_some s i hi, lenVal_of_some s n hn, index_succ_lt_iff i n hlt]
  rw [step_rdByte s he hs]
  by_cases hm : i.toNat + 1 < n.toNat
  · refine ⟨_, readValue a r s, stepRdByte_more s r rest hr (hmore.mpr hm), mayRead_readValue s a r, ?_⟩
    simp [hm, hcur, hobuf, idxVal_of_some s i hi, hn, he.2]
  · refine ⟨_, readValue a r s, stepRdByte_last s r rest hr (mt hmore.mp hm), mayRead_readValue s a r, ?_⟩
    simp [hm, hcur, hobuf, he.2]

end

section
/-! SUPPORT. The read loop of a READ (R162): what its steps leave alone, and the run of all that remain. -/

namespace Sys2Proof.Machine

/-- R70, R71 (log entry 1). -/
theorem decode_encode_read (a : Word) (n : Half) : decode (encode (.read a n)) = .ok (.read a n) := by
  rw [encode, decode_opByte, Instr.opCode, decodeFields_read]
  simp only [encodeFields, bytes32, bytes16, List.cons_append, List.nil_append, decodeRead, word32_of_bytes,
    half16_of_bytes]

/-! R59, R67: what may be read depends on the parameters and the flash alone. -/

theorem mayRead_congr {s t : State} {a : Word} {r : MemReply} {b : Byte} (h : MayRead t a r b) (hhw : t.hw = s.hw)
    (hflash : t.flash = s.flash) : MayRead s a r b := by
  cases r with
  | contents =>
    intro ha
    rw [← hflash]
    exact h (hhw ▸ ha)
  | byte v => exact h

theorem mayReadAll_congr {s t : State} {a : Word} {replies : List MemReply} {out : List Byte}
    (h : MayReadAll t a replies out) (hhw : t.hw = s.hw) (hflash : t.flash = s.flash) : MayReadAll s a replies out := by
  induction replies generalizing a out with
  | nil =>
    cases out with
    | nil => trivial
    | cons b bs => exact h.elim
  | cons r rest ih =>
    cases out with
    | nil => exact h.elim
    | cons b bs =>
      obtain ⟨hb, hbs⟩ := h
      exact ⟨mayRead_congr hb hhw hflash, ih hbs⟩

/-- R160, R162: what no step of a READ touches. -/
structure SameButRead (s t : State) : Prop where
  hw : t.hw = s.hw
  haltCause : t.haltCause = s.haltCause
  ctlUnlocked : t.ctlUnlocked = s.ctlUnlocked
  ctlFlags : t.ctlFlags = s.ctlFlags
  ctlReplies : t.ctlReplies = s.ctlReplies
  offers : t.offers = s.offers
  flash : t.flash = s.flash

theorem SameButRead.trans {s t u : State} (h : SameButRead s t) (h' : SameButRead t u) : SameButRead s u where
  hw := h'.hw.trans h.hw
  haltCause := h'.haltCause.trans h.haltCause
  ctlUnlocked := h'.ctlUnlocked.trans h.ctlUnlocked
  ctlFlags := h'.ctlFlags.trans h.ctlFlags
  ctlReplies := h'.ctlReplies.trans h.ctlReplies
  offers := h'.offers.trans h.offers
  flash := h'.flash.trans h.flash

/-- R162: a READ of `n` bytes has its next byte to read at `a`, the bytes `o` read so far, `i` of them by its index. -/
structure AtByteRead (s : State) (a : Word) (n i : Half) (o : List Byte) : Prop where
  enabled : Enabled s
  seq : s.seq = .rdByte
  cur : s.cur = some a
  lenR : s.lenR = some n
  idx : s.idx = some i
  obuf : s.obuf = some o

/-- R160, R161: the state in which a READ of `n` bytes from `a`, begun in `s`, has read no byte. -/
def atFirstRead (s : State) (a : Word) (n : Half) (offers : List (List Byte)) : State :=
  { s with
    seq := .rdByte
    cur := some a
    lenR := some n
    idx := some 0
    obuf := some []
    offers := offers
    history := s.history ++ [.cmd (.read a n)] }

theorem atByteRead_atFirstRead (s : State) (a : Word) (n : Half) (offers : List (List Byte)) (he : Enabled s) :
    AtByteRead (atFirstRead s a n offers) a n 0 [] := ⟨he, rfl, rfl, rfl, rfl, rfl⟩

/-- R162: one answer for each of the bytes that remain, one step a byte, the last with the response. -/
theorem run_reads {s : State} {a : Word} {n i : Half} {o : List Byte} {r : MemReply} {reads rest : List MemReply}
    (h : AtByteRead s a n i o) (hr : s.memReplies = r :: (reads ++ rest))
    (hlen : i.toNat + 1 + reads.length = n.toNat) :
    ∃ t out, runSteps (reads.length + 1) s = .next t ∧ MayReadAll s a (r :: reads) out ∧ t.seq = .idle ∧
      t.history = s.history ++ (readEvents a out ++ [.rsp (.bytes (o ++ out))]) ∧ t.memReplies = rest ∧
      SameButRead s t := by
  induction reads generalizing s a i o r with
  | nil =>
    have hlast : i.toNat + 1 = n.toNat := hlen
    obtain ⟨t, b, hstep, hb, -, hend, hhw, hcause, hunlocked, hflags, hctl, hmem, hoffers, -, hflash⟩ :=
      readStepAppendsTheByte s a n i o r rest h.enabled h.seq h.cur h.lenR h.idx h.obuf (by omega) hr
    obtain ⟨hseq, hhistory⟩ := hend hlast.not_lt
    exact ⟨t, [b], runSteps_next 0 s t hstep, ⟨hb, trivial⟩, hseq, hhistory, hmem,
      ⟨hhw, hcause, hunlocked, hflags, hctl, hoffers, hflash⟩⟩
  | cons r' reads ih =>
    have hmore : i.toNat + 1 < n.toNat := by rw [List.length_cons] at hlen; omega
    have hlt : i.toNat < n.toNat := Nat.lt_of_succ_lt hmore
    obtain ⟨t, b, hstep, hb, hgo, -, hhw, hcause, hunlocked, hflags, hctl, hmem, hoffers, hreset, hflash⟩ :=
      readStepAppendsTheByte s a n i o r _ h.enabled h.seq h.cur h.lenR h.idx h.obuf hlt hr
    obtain ⟨hseq, hcur, hlenR, hidx, hobuf, -, -, hhistory⟩ := hgo hmore
    have ht : AtByteRead t (a + 1) n (i + 1) (o ++ [b]) :=
      ⟨⟨hhw ▸ h.enabled.1, hreset⟩, hseq, hcur, hlenR, hidx, hobuf⟩
    have hleft : (i + 1).toNat + 1 + reads.length = n.toNat := by
      rw [toNat_index_succ i n hlt, ← hlen, List.length_cons]
      omega
    obtain ⟨u, out, hrun, hout, hidle, hevents, hrest, hsame⟩ := ih ht hmem hleft
    refine ⟨u, b :: out, (runSteps_next _ s t hstep).trans hrun, ⟨hb, mayReadAll_congr hout hhw hflash⟩, hidle,
      ?history, hrest, SameButRead.trans ⟨hhw, hcause, hunlocked, hflags, hctl, hoffers, hflash⟩ hsame⟩
    case history => simp [hevents, hhistory, readEvents]

end Sys2Proof.Machine
end

section
/-! The obligation of whole READ commands (spec/44_byte_read.md R160). -/

open Sys2Proof Sys2Proof.Machine

/-- Settles O43: of length 0 the accepting step responds; otherwise it enters the loop, one step a byte. -/
theorem readRunAnswersTheBytes : Obligations.ReadRunAnswersTheBytes := by
  intro s a n offers reads rest he hs ho hr hlen
  have haccept := step_command s _ _ offers he.1 he.2 hs ho (decode_encode_read a n)
  cases reads with
  | nil =>
    obtain rfl : n = 0 := BitVec.eq_of_toNat_eq hlen.symm
    have hstep := haccept.trans (exec_read_zero { s with offers := offers } a hs)
    refine ⟨_, [], runSteps_next 0 s _ hstep, trivial, rfl, rfl, ?history, rfl, rfl, rfl, rfl, rfl, hr⟩
    case history => simp [readEvents]
  | cons r reads =>
    have hn : n ≠ 0 := by
      rintro rfl
      cases hlen
    have hstep : step s = .next (atFirstRead s a n offers) := haccept.trans (exec_read _ a n hs hn)
    obtain ⟨t, out, hrun, hout, hidle, hhistory, hrest, hsame⟩ :=
      run_reads (atByteRead_atFirstRead s a n offers he) hr (by simpa [Nat.add_comm] using hlen)
    refine ⟨t, out, ?run, mayReadAll_congr hout rfl rfl, hidle, hsame.haltCause, ?history, hsame.ctlUnlocked,
      hsame.ctlFlags, hsame.ctlReplies, hsame.flash, hsame.offers, hrest⟩
    case run => rw [← hlen, List.length_cons, runSteps_next _ s _ hstep, hrun]
    case history => simp [hhistory, atFirstRead]

end

section
/-! SUPPORT. A call or a read not answered (spec/60_exceptions.md R181), and the one way into the fatal halt from an acceptance and from a chain step (R171, R175). -/

namespace Sys2Proof.Machine

/-! R181: the wait. -/

/-- R22: each of the eight states of an ERASE or a WRITE in progress makes one call of the controller. -/
theorem chainStep_of_callInFlight (s : State) (h : callInFlight s.seq = true) :
    ∃ act, chainStep s = awaitController s act := by
  unfold chainStep
  cases e : s.seq
  case idle | rdByte | halted => simp [e, callInFlight] at h
  all_goals exact ⟨_, rfl⟩

theorem chainStep_of_waiting (s : State) (hw : Waiting s) : chainStep s = .next s := by
  obtain ⟨hc, hr⟩ | ⟨e, hr⟩ := hw
  · obtain ⟨act, hact⟩ := chainStep_of_callInFlight s hc
    rw [hact, awaitController_waits s act hr]
  · rw [chainStep, e]
    exact awaitMemory_waits s _ hr

theorem seq_of_waiting (s : State) (hw : Waiting s) : s.seq ≠ .idle ∧ s.seq ≠ .halted := by
  obtain ⟨hc, -⟩ | ⟨e, -⟩ := hw
  · constructor <;> intro e <;> simp [e, callInFlight] at hc
  · simp [e]

/-- A step that changes nothing is repeated for ever. -/
theorem runSteps_of_step_self (k : Nat) (s : State) (h : step s = .next s) : runSteps k s = .next s := by
  induction k with
  | zero => rfl
  | succ k ih => rw [runSteps_next k s s h, ih]

/-- R72: outside `IDLE` the channel is not ready for any well-formed command. -/
theorem exec_channelNotReady (i : Instr) (s : State) (hs : s.seq ≠ .idle) (hi : i.wf = true) :
    exec i s = .refused .channelNotReady := by
  cases i with
  | resolve a => rw [exec, execResolve, accept_busy _ s _ hs]
  | name2num a => rw [exec, execName2num, accept_busy _ s _ hs]
  | erase a => rw [exec, execErase, accept_busy _ s _ hs]
  | write a n d => exact (if_pos (of_decide_eq_true hi)).trans (accept_busy _ s _ hs)
  | read a n => rw [exec, execRead, accept_busy _ s _ hs]

/-! R171, R175: the halt. -/

theorem chainStep_of_halted (s : State) (hs : s.seq = .halted) : chainStep s = .fault (.halted s.haltCause) := by
  rw [chainStep, hs]

/-- R132: a name above 0x1B halts. -/
theorem exec_name2num_above (s : State) (name : Word) (hs : s.seq = .idle) (h : 0x1B < name) :
    exec (.name2num name) s = .next (takeHalt .nameRange (emit (.cmd (.name2num name)) s)) := by
  rw [exec, execName2num, accept_idle _ s _ hs, selectorOfName_none name (BitVec.not_le.mpr h)]

/-- R132, R141, R171: an acceptance that halts is of a name above 0x1B or of an erase outside the region. -/
theorem exec_halted (i : Instr) (s t : State) (hl : s.hw.legal = true) (h : exec i s = .next t)
    (ht : t.seq = .halted) :
    (∃ name, i = .name2num name ∧ 0x1B < name ∧ t = takeHalt .nameRange (emit (.cmd i) s)) ∨
      (∃ a, i = .erase a ∧ inRegion s.hw a.toNat = false ∧ t = takeHalt .eraseBadAddr (emit (.cmd i) s)) := by
  cases i with
  | resolve a =>
    obtain ⟨-, rfl⟩ := execResolve_next a s t h
    cases ht
  | name2num name =>
    obtain ⟨-, ⟨k, -, rfl⟩ | ⟨hk, rfl⟩⟩ := execName2num_next name s t h
    · cases ht
    · refine .inl ⟨name, rfl, BitVec.not_le.mp fun hn => ?_, rfl⟩
      obtain ⟨k, hk', -⟩ := selectorOfName_number name hn
      cases hk.symm.trans hk'
  | erase a =>
    cases ha : inRegion s.hw a.toNat with
    | true =>
      obtain ⟨r, -, -, -, hx⟩ := exec_erase_inRegion s a (exec_next_idle _ s t h) hl ha
      cases hx.symm.trans h
      cases ht
    | false =>
      cases (exec_erase_outside s a (exec_next_idle _ s t h) ha).symm.trans h
      exact .inr ⟨a, rfl, ha, rfl⟩
  | write a n d =>
    obtain ⟨-, -, rfl⟩ := execWrite_next a n d s t h
    cases ht
  | read a n => obtain ⟨-, ⟨-, rfl⟩ | ⟨-, rfl⟩⟩ := execRead_next a n s t h <;> cases ht

/-- R144, R154, R171: a chain step that halts had its erase or its program answered with a status other than `Ready`. -/
theorem chainStep_halted (s t : State) (hs : s.seq ≠ .idle) (h : chainStep s = .next t) (ht : t.seq = .halted) :
    ∃ r rest, s.ctlReplies = r :: rest ∧ replyStatus r s ≠ .ready ∧
      ((s.seq = .erErase ∧ t = takeHalt .eraseFail (ctlErase (selVal s) r (setCtlReplies rest s))) ∨
        (s.seq = .wrProg ∧
          t = takeHalt .programFail (ctlProgram (curVal s) (dataByte s) r (setCtlReplies rest s)))) := by
  rcases chainStep_next s t hs h with rfl |
    ⟨r, rest, hr, ⟨-, rfl⟩ | ⟨-, rfl⟩ | ⟨-, -, rfl⟩ | ⟨e, hy, rfl⟩ | ⟨-, rfl⟩ | ⟨-, rfl⟩ | ⟨-, rfl⟩ | ⟨-, -, rfl⟩ |
      ⟨e, hy, rfl⟩ | ⟨-, rfl⟩⟩ |
    ⟨r, rest, -, -, ⟨-, rfl⟩ | ⟨-, rfl⟩⟩
  any_goals cases ht
  · cases (chainStep_of_halted _ ht).symm.trans h
  · exact ⟨r, rest, hr, hy, .inl ⟨e, rfl⟩⟩
  · rw [goto_seq] at ht
    split at ht <;> cases ht
  · rw [goto_seq] at ht
    split at ht <;> cases ht
  · exact ⟨r, rest, hr, hy, .inr ⟨e, rfl⟩⟩

/-! R171: each cause, exactly on its condition. -/

theorem exec_halts_nameRange_iff (i : Instr) (s t : State) (hl : s.hw.legal = true) (h : exec i s = .next t) :
    t.seq = .halted ∧ t.haltCause = some .nameRange ↔ ∃ name, i = .name2num name ∧ 0x1B < name := by
  constructor
  · rintro ⟨ht, hc⟩
    obtain ⟨name, hi, hn, -⟩ | ⟨a, -, -, rfl⟩ := exec_halted i s t hl h ht
    · exact ⟨name, hi, hn⟩
    · cases hc
  · rintro ⟨name, rfl, hn⟩
    cases (exec_name2num_above s name (exec_next_idle _ s t h) hn).symm.trans h
    exact ⟨rfl, rfl⟩

theorem exec_halts_eraseBadAddr_iff (i : Instr) (s t : State) (hl : s.hw.legal = true) (h : exec i s = .next t) :
    t.seq = .halted ∧ t.haltCause = some .eraseBadAddr ↔ ∃ a, i = .erase a ∧ inRegion s.hw a.toNat = false := by
  constructor
  · rintro ⟨ht, hc⟩
    obtain ⟨name, -, -, rfl⟩ | ⟨a, hi, ha, -⟩ := exec_halted i s t hl h ht
    · cases hc
    · exact ⟨a, hi, ha⟩
  · rintro ⟨a, rfl, ha⟩
    cases (exec_erase_outside s a (exec_next_idle _ s t h) ha).symm.trans h
    exact ⟨rfl, rfl⟩

theorem exec_halted_cause (i : Instr) (s t : State) (hl : s.hw.legal = true) (h : exec i s = .next t)
    (ht : t.seq = .halted) : t.haltCause = some .nameRange ∨ t.haltCause = some .eraseBadAddr := by
  obtain ⟨name, -, -, rfl⟩ | ⟨a, -, -, rfl⟩ := exec_halted i s t hl h ht
  · exact .inl rfl
  · exact .inr rfl

theorem chainStep_halts_eraseFail_iff (s t : State) (hs : s.seq ≠ .idle) (h : chainStep s = .next t) :
    t.seq = .halted ∧ t.haltCause = some .eraseFail ↔
      s.seq = .erErase ∧ ∃ r rest, s.ctlReplies = r :: rest ∧ replyStatus r s ≠ .ready := by
  constructor
  · rintro ⟨ht, hc⟩
    obtain ⟨r, rest, hr, hy, ⟨e, -⟩ | ⟨-, rfl⟩⟩ := chainStep_halted s t hs h ht
    · exact ⟨e, r, rest, hr, hy⟩
    · cases hc
  · rintro ⟨e, r, rest, hr, hy⟩
    rw [chainStep, e] at h
    cases (stepErErase_failed s r rest hr hy).symm.trans h
    exact ⟨rfl, rfl⟩

theorem chainStep_halts_programFail_iff (s t : State) (hs : s.seq ≠ .idle) (h : chainStep s = .next t) :
    t.seq = .halted ∧ t.haltCause = some .programFail ↔
      s.seq = .wrProg ∧ ∃ r rest, s.ctlReplies = r :: rest ∧ replyStatus r s ≠ .ready := by
  constructor
  · rintro ⟨ht, hc⟩
    obtain ⟨r, rest, hr, hy, ⟨-, rfl⟩ | ⟨e, -⟩⟩ := chainStep_halted s t hs h ht
    · cases hc
    · exact ⟨e, r, rest, hr, hy⟩
  · rintro ⟨e, r, rest, hr, hy⟩
    rw [chainStep, e] at h
    cases (stepWrProg_failed s r rest hr hy).symm.trans h
    exact ⟨rfl, rfl⟩

theorem chainStep_halted_cause (s t : State) (hs : s.seq ≠ .idle) (h : chainStep s = .next t) (ht : t.seq = .halted) :
    t.haltCause = some .eraseFail ∨ t.haltCause = some .programFail := by
  obtain ⟨r, rest, -, -, ⟨-, rfl⟩ | ⟨-, rfl⟩⟩ := chainStep_halted s t hs h ht
  · exact .inl rfl
  · exact .inr rfl

end Sys2Proof.Machine
end

section
/-! The obligations of waiting and of the fatal halt (spec/60_exceptions.md). -/

open Sys2Proof Sys2Proof.Machine

/-- Settles O37: a step that waits changes nothing, and nor does any number of them. -/
theorem unansweredCallWaits : Obligations.UnansweredCallWaits := by
  intro s he hw
  obtain ⟨hidle, hhalted⟩ := seq_of_waiting s hw
  have hstep : step s = .next s := (step_of_enabled s he hidle).trans (chainStep_of_waiting s hw)
  refine ⟨fun k => runSteps_of_step_self k s hstep, decide_eq_false hhalted, fun i => ?_⟩
  cases hi : i.wf with
  | true => exact .inl (exec_channelNotReady i s hidle hi)
  | false => exact .inr rfl

/-- Settles O44: whatever enters `HALTED` does so by `takeHalt`, after the `Cmd` of an acceptance or the call that failed. -/
theorem haltEntryRecordsTheCauseOnly : Obligations.HaltEntryRecordsTheCauseOnly := by
  refine ⟨fun _ _ => rfl, ?entry, ?none⟩
  case entry =>
    intro s t hn h ht
    obtain ⟨hl, ⟨found, -, rfl⟩ | ⟨-, -, -, rfl⟩ | ⟨frame, rest, i, -, -, -, -, hx⟩ | ⟨-, hs, hx⟩⟩ := step_cases s t h
    · cases ht
    · exact absurd ht hn
    · rcases exec_halted i { s with offers := rest } t hl hx ht with ⟨name, -, -, rfl⟩ | ⟨a, -, -, rfl⟩
      · exact ⟨.nameRange, [.cmd i], by simp⟩
      · exact ⟨.eraseBadAddr, [.cmd i], by simp⟩
    · obtain ⟨r, rest, -, -, ⟨-, rfl⟩ | ⟨-, rfl⟩⟩ := chainStep_halted s t hs hx ht
      · exact ⟨.eraseFail, [.erase (selVal s) (replyStatus r s)], by simp⟩
      · exact ⟨.programFail, [.program (curVal s) (dataByte s) (replyStatus r s)], by simp⟩
  case none =>
    intro s he (hs : s.seq = .halted)
    have hidle : s.seq ≠ .idle := by simp [hs]
    exact ⟨fun hend => hidle hend.2, (step_of_enabled s he hidle).trans (chainStep_of_halted s hs)⟩

/-- Settles O45: the acceptances and the chain steps that halt, each with its cause. -/
theorem eachHaltCauseHasItsCondition : Obligations.EachHaltCauseHasItsCondition := by
  refine ⟨⟨rfl, rfl, rfl, rfl⟩, ?acceptance, ?chain, ?bracket⟩
  case acceptance =>
    exact fun i s t hl h =>
      ⟨exec_halts_nameRange_iff i s t hl h, exec_halts_eraseBadAddr_iff i s t hl h, exec_halted_cause i s t hl h⟩
  case chain =>
    intro s t he hs h
    rw [step_of_enabled s he hs] at h
    exact ⟨chainStep_halts_eraseFail_iff s t hs h, chainStep_halts_programFail_iff s t hs h,
      chainStep_halted_cause s t hs h⟩
  case bracket =>
    intro s hs
    simp [bracketOpen, hs]

/-- Settles O46: in `HALTED` the sequencer has no step, so one that answers is a reset's. -/
theorem onlyResetLeavesHalted : Obligations.OnlyResetLeavesHalted := by
  intro s hs
  have hidle : s.seq ≠ .idle := by simp [hs]
  refine ⟨fun i => exec_busy i s hidle, ?leaves, fun found hl hr => ⟨_, step_of_reset s found hl hr⟩⟩
  case leaves =>
    intro t h
    obtain ⟨-, ⟨found, hr, rfl⟩ | ⟨-, e, -⟩ | ⟨frame, rest, i, -, e, -⟩ | ⟨-, -, hx⟩⟩ := step_cases s t h
    · exact ⟨found, hr, rfl, rfl⟩
    · exact absurd e hidle
    · exact absurd e hidle
    · cases (chainStep_of_halted s hs).symm.trans hx

end

section
/-! SUPPORT. What a step that answers a reset finds and leaves of the controller and the flash (R192, R193, U20). -/

namespace Sys2Proof.Machine

/-- R190: a step with a reset asked for answers that reset. -/
theorem eq_resetBlock_of_step (s t : State) (found : Abandoned) (hr : s.resetReq = some found)
    (h : step s = .next t) : t = resetBlock found s := by
  obtain ⟨hl, -⟩ := step_cases s t h
  cases (step_of_reset s found hl hr).symm.trans h
  rfl

theorem callInFlight_of_eraseInProgress {q : Seq} (h : EraseInProgress q) : callInFlight q = true := by
  rcases h with rfl | rfl | rfl | rfl <;> rfl

theorem callInFlight_of_writeInProgress {q : Seq} (h : WriteInProgress q) : callInFlight q = true := by
  rcases h with rfl | rfl | rfl | rfl <;> rfl

/-- R193: without a call in flight no byte is the command's. -/
theorem inCommandRange_idle_halted_rdByte (s : State) (x : Nat)
    (h : s.seq = .idle ∨ s.seq = .halted ∨ s.seq = .rdByte) : inCommandRange s x = false := by
  rcases h with e | e | e <;> simp only [inCommandRange, e]

/-- R53, R79: a number's physical sector is that of a row with the number, or no byte. -/
theorem inSector_false_of_rows (hw : Params) (n : Word) (x : Nat)
    (h : ∀ r ∈ sectorTable, n = ctlIdx r.selector → rowHolds hw x r = false) : inSector hw n x = false := by
  unfold inSector
  cases hr : rowOfNumber n with
  | none => rfl
  | some r =>
    have hsel : ctlIdx r.selector = n := by simpa using List.find?_some hr
    exact h r (List.mem_of_find?_eq_some hr) hsel.symm

/-- U20: what a reset may find: the lock state and the whole region's contents as chosen. -/
def chosenLeftovers (s : State) (unlocked : Bool) (contents : Nat → Byte) : Abandoned where
  unlocked := unlocked
  flags := s.ctlFlags
  cells := (List.range (s.hw.flashEnd.toNat + 1)).map fun a => (a, contents a)

theorem resetBlock_chosenLeftovers_flash (s : State) (unlocked : Bool) (contents : Nat → Byte) (x : Nat)
    (hc : inCommandRange s x = true) (hr : inRegion s.hw x = true) :
    readCell (resetBlock (chosenLeftovers s unlocked contents) s).flash x = contents x := by
  have hx : x ∈ List.range (s.hw.flashEnd.toNat + 1) :=
    List.mem_range.mpr (Nat.lt_succ_of_le ((inRegion_iff s.hw x).mp hr).2)
  exact readCell_patchCells_listed s.hw _ s.flash contents _ x hx hc hr

/-- R193, U20: with a call in flight some reset leaves a chosen lock state and, in the command's range, chosen bytes. -/
theorem exists_reset_leaving (s : State) (unlocked : Bool) (contents : Nat → Byte) (hl : s.hw.legal = true)
    (hc : callInFlight s.seq = true) :
    ∃ (found : Abandoned) (t : State), step { s with resetReq := some found } = .next t ∧
      t.ctlUnlocked = unlocked ∧
      ∀ x : Nat, inCommandRange s x = true → inRegion s.hw x = true → readCell t.flash x = contents x :=
  ⟨chosenLeftovers s unlocked contents, _, step_of_reset _ _ hl rfl, if_pos hc,
    resetBlock_chosenLeftovers_flash s unlocked contents⟩

end Sys2Proof.Machine
end

section
/-! The obligations of reset (spec/70_reset_and_hazards.md). -/

open Sys2Proof Sys2Proof.Machine

/-- Settles O48: the leftovers of a reset reach the controller and the flash only where a call is in flight. -/
theorem resetLeavesTheController : Obligations.ResetLeavesTheController := by
  intro s t found hr h
  obtain rfl := eq_resetBlock_of_step s t found hr h
  refine ⟨fun hs => ⟨?lock, ?flags, ?flash⟩, fun hc => if_pos hc, fun hs => ?lockCall⟩
  case lock => rcases hs with e | e | e <;> simp [e, callInFlight]
  case flags => rcases hs with e | e | e <;> simp [e, flagCallInFlight]
  case flash => exact patchCells_none _ _ _ _ fun x => inCommandRange_idle_halted_rdByte s x hs
  case lockCall => rcases hs with e | e | e | e <;> simp [e, flagCallInFlight]

/-- Settles O49: a byte outside the command's range is not patched. -/
theorem resetKeepsBytesOutsideTheCommand : Obligations.ResetKeepsBytesOutsideTheCommand := by
  intro s t found hr h
  obtain rfl := eq_resetBlock_of_step s t found hr h
  refine ⟨fun n he hn x hx => ?erase, fun a n i hw ha hn hi x hx => ?write⟩
  all_goals apply readCell_patchCells_other
  case erase => exact (inCommandRange_erase s n x he hn).trans (inSector_false_of_rows s.hw n x hx)
  case write =>
    rw [Bool.eq_false_iff, Ne, inCommandRange_write s a n i x hw ha hn hi]
    exact fun ⟨k, hk, e⟩ => hx k hk e

/-- Settles O50: the reset that finds the chosen bytes in the whole region leaves them in the command's range. -/
theorem resetMayLeaveAnyBytesInTheCommand : Obligations.ResetMayLeaveAnyBytesInTheCommand := by
  intro s unlocked contents hl
  refine ⟨fun r hr he hn => ?erase, fun a n i hw ha hn hi => ?write⟩
  case erase =>
    obtain ⟨found, t, hstep, hlock, hbytes⟩ :=
      exists_reset_leaving s unlocked contents hl (callInFlight_of_eraseInProgress he)
    refine ⟨found, t, hstep, hlock, fun x hx => hbytes x ?_ (row_in_region s.hw hl r hr x hx)⟩
    rw [inCommandRange_erase s _ x he hn, inSector_ctlIdx s.hw r hr x, hx]
  case write =>
    obtain ⟨found, t, hstep, hlock, hbytes⟩ :=
      exists_reset_leaving s unlocked contents hl (callInFlight_of_writeInProgress hw)
    exact ⟨found, t, hstep, hlock, fun k hk x hx =>
      hbytes x ((inCommandRange_write s a n i x hw ha hn hi).mpr ⟨k, hk, hx⟩)⟩

/-- Settles O47: every reset asked for is answered by `resetBlock`, and nothing else leaves `HALTED`. -/
theorem resetLeavesTheBlockIdle : Obligations.ResetLeavesTheBlockIdle := by
  refine ⟨fun s found hl hr => ?answered, fun s t hs h hn => ?halted, ?reset⟩
  case answered =>
    exact ⟨_, step_of_reset s found hl hr, rfl, rfl, rfl, ⟨rfl, rfl, rfl, rfl, rfl, rfl⟩, rfl, rfl, rfl⟩
  case halted =>
    obtain ⟨-, hleaves, -⟩ := onlyResetLeavesHalted s hs
    obtain ⟨found, hr, -⟩ := hleaves t h
    exact Option.some_ne_none found (hr.symm.trans hn)
  case reset => exact ⟨rfl, rfl, rfl, rfl, rfl, rfl, rfl, rfl, rfl⟩

end

section
/-! SUPPORT. Decoding and encoding undo each other (spec/30_encoding.md section 1, log entry 1): what each format's reader accepts, and the transaction of each command. -/

namespace Sys2Proof

/-- R70, R71 (log entry 1). -/
theorem decode_encode_resolve (a : Word) : decode (encode (.resolve a)) = .ok (.resolve a) := by
  rw [encode, decode_opByte, Instr.opCode, decodeFields_resolve]
  simp only [encodeFields, bytes32, decodeWord, word32_of_bytes]

/-- R70, R71 (log entry 1). -/
theorem decode_encode_name2num (name : Word) : decode (encode (.name2num name)) = .ok (.name2num name) := by
  rw [encode, decode_opByte, Instr.opCode, decodeFields_name2num]
  simp only [encodeFields, bytes32, decodeWord, word32_of_bytes]

/-! R71: a reader accepts the bytes of its fields alone. -/

/-- The code and the operands are those of the command, which is well formed. -/
def CarriesCommand (op : BitVec 3) (operands : List Byte) (i : Instr) : Prop :=
  i.wf = true ∧ op = i.opCode ∧ encodeFields i = operands

theorem decodeWord_carries {op : BitVec 3} {mk : Word → Instr} {operands : List Byte} {i : Instr}
    (h : decodeWord mk operands = .ok i) (hmk : ∀ v, CarriesCommand op (bytes32 v) (mk v)) :
    CarriesCommand op operands i := by
  unfold decodeWord at h
  split at h
  · next b0 b1 b2 b3 =>
    cases h
    rw [← bytes32_of_word b0 b1 b2 b3]
    exact hmk _
  all_goals cases h

theorem decodeWrite_carries {operands : List Byte} {i : Instr} (h : decodeWrite operands = .ok i) :
    CarriesCommand 3 operands i := by
  unfold decodeWrite at h
  split at h
  · split at h
    · next hn =>
      cases h
      exact ⟨decide_eq_true hn, rfl, by rw [encodeFields, bytes32_of_word, bytes16_of_half]; rfl⟩
    · cases h
  · cases h

theorem decodeRead_carries {operands : List Byte} {i : Instr} (h : decodeRead operands = .ok i) :
    CarriesCommand 4 operands i := by
  unfold decodeRead at h
  split at h
  · cases h
    exact ⟨rfl, rfl, by rw [encodeFields, bytes32_of_word, bytes16_of_half]; rfl⟩
  all_goals cases h

/-- R70, R71, R73: what decodes under a code is a well-formed command with that code and those operands. -/
theorem decodeFields_carries {op : BitVec 3} {operands : List Byte} {i : Instr}
    (h : decodeFields op operands = .ok i) : CarriesCommand op operands i := by
  unfold decodeFields at h
  split at h
  · next e => exact decodeWord_carries h fun _ => ⟨rfl, e, rfl⟩
  split at h
  · next e => exact decodeWord_carries h fun _ => ⟨rfl, e, rfl⟩
  split at h
  · next e => exact decodeWord_carries h fun _ => ⟨rfl, e, rfl⟩
  split at h
  · next e => exact e ▸ decodeWrite_carries h
  split at h
  · next e => exact e ▸ decodeRead_carries h
  · cases h

end Sys2Proof
end

section
/-! The obligations of commands and their transactions. -/

open Sys2Proof Sys2Proof.Machine

/-- Settles O1, command by command. -/
theorem decodeOfEncodeIsTheCommand : Obligations.DecodeOfEncodeIsTheCommand := by
  intro i hi
  cases i with
  | resolve a => exact decode_encode_resolve a
  | name2num name => exact decode_encode_name2num name
  | erase a => exact decode_encode_erase a
  | write a n d => exact decode_encode_write a n d (of_decide_eq_true hi)
  | read a n => exact decode_encode_read a n

/-- Settles O2: the first byte gives the code alone, and its reader accepts just the operands' bytes. -/
theorem decodedTransactionIsItsEncoding : Obligations.DecodedTransactionIsItsEncoding := by
  intro frame i h
  cases frame with
  | nil => cases h
  | cons b operands =>
    obtain ⟨hwf, hop, henc⟩ := decodeFields_carries h
    exact ⟨hwf, b, operands, rfl, hop, by rw [encode, henc]⟩

/-- Settles O3: each transaction is the encoding of its command. -/
theorem knownTransactionsDecode : Obligations.KnownTransactionsDecode :=
  ⟨decode_encode_resolve 0x08004000, decode_encode_name2num 0x1B, decode_encode_erase 0x08201234,
    decode_encode_write 0x08200000 3 [0x12, 0x80, 0xFF] (by decide), decode_encode_read 0x081FFFFF 2⟩

end

section
/-! SUPPORT. The 28 rows of the sector table in order (R79), and where their ranges and their reported bounds lie in a legal configuration (spec/40_resolver.md section 3). -/

namespace Sys2Proof.Machine

/-! R79: facts of the rows alone. -/

theorem sectorTable_nodup : sectorTable.Nodup := by decide

/-- R13, R79: every row has a name up to 0x1B, one of the four sizes, and ends `size` bytes after it begins. -/
theorem row_shape : ∀ r ∈ sectorTable, r.name ≤ 0x1B ∧
    (r.size = 0x4000 ∨ r.size = 0x10000 ∨ r.size = 0x20000 ∨ r.size = 0x40000) ∧ r.last = r.first + (r.size - 1) := by
  decide

theorem row_of_name : ∀ name : Word, name.toNat < 28 → ∃ r ∈ sectorTable, r.name = name :=
  forall_word_lt 28 (by decide)

theorem selectorOfName_row : ∀ r ∈ sectorTable, selectorOfName r.name = some r.selector := by decide

/-- R79: the rows whose bounds are computed from `B1S_BASE` are names 0xC to 0xF, the first four of bank1. -/
theorem fromB1s_iff : ∀ r ∈ sectorTable, r.fromB1s = true ↔ 0xC ≤ r.name ∧ r.name ≤ 0xF := by decide

theorem fromB1s_in_bank1 : ∀ r ∈ sectorTable, r.fromB1s = true → r.inBank1 = true ∧ r.last ≤ 0xFFFF := by decide

/-- R79: of two rows the one with the smaller name lies before the other: in bank0 while that is in bank1, or below it in the same bank. -/
theorem rows_ordered : ∀ r ∈ sectorTable, ∀ r' ∈ sectorTable, r.name < r'.name →
    (r.inBank1 = false ∧ r'.inBank1 = true) ∨ (r.inBank1 = r'.inBank1 ∧ r.last < r'.first) := by
  decide

theorem sizes_rise : ∀ r ∈ sectorTable, ∀ r' ∈ sectorTable, r.inBank1 = r'.inBank1 → r.name ≤ r'.name →
    r.size ≤ r'.size := by decide

/-- R79: rows of consecutive names, but for the last of bank0 and the first of bank1, are adjacent in their bank. -/
theorem rows_adjacent : ∀ r ∈ sectorTable, ∀ r' ∈ sectorTable, r'.name = r.name + 1 → r.name ≠ 0xB →
    r'.inBank1 = r.inBank1 ∧ r'.first = r.last + 1 ∧
      if r.name = 0xF then r.fromB1s = true ∧ r'.fromB1s = false ∧ r'.first = 0x10000 else r'.fromB1s = r.fromB1s := by
  decide

/-- R79: `next` begins where `r` ends, in its bank or at the start of the next. -/
def RowFollows (r next : SectorRow) : Prop :=
  (next.inBank1 = r.inBank1 ∧ next.first.toNat = r.last.toNat + 1) ∨
    (r.inBank1 = false ∧ next.inBank1 = true ∧ r.last.toNat = 0xFFFFF ∧ next.first.toNat = 0)

theorem sectorTable_follows : List.IsChain RowFollows sectorTable := by
  unfold RowFollows
  decide

/-! R118: the resolver's table form. -/

/-- An address that a row holds is looked up as that row's record. -/
theorem tableResolve_of_rowHolds (hw : Params) (h : hw.legal = true) (a : Word) (r : SectorRow) (hr : r ∈ sectorTable)
    (ha : rowHolds hw a.toNat r = true) : tableResolve hw a = rowInfo hw r := by
  unfold tableResolve
  cases hf : sectorTable.find? (rowHolds hw a.toNat) with
  | none => exact absurd ha (List.find?_eq_none.mp hf r hr)
  | some r' =>
    exact congrArg (rowInfo hw) (row_unique hw h r' r (List.mem_of_find?_eq_some hf) hr _ (List.find?_some hf) ha)

/-- R118: no row holds an address outside the region. -/
theorem no_row_outside (hw : Params) (h : hw.legal = true) (a : Nat) (ha : inRegion hw a = false) :
    ∀ r ∈ sectorTable, ¬ rowHolds hw a r = true := by
  intro r hr hh
  rw [row_in_region hw h r hr a hh] at ha
  cases ha

/-- R118: one row holds an address that some row holds. -/
theorem countP_rowHolds (hw : Params) (h : hw.legal = true) (a : Nat) (r : SectorRow) (hr : r ∈ sectorTable)
    (ha : rowHolds hw a r = true) : sectorTable.countP (rowHolds hw a) = 1 := by
  rw [← List.count_eq_one_of_mem sectorTable_nodup hr]
  refine List.countP_congr fun r' hr' => ?_
  rw [beq_iff_eq]
  exact ⟨fun ha' => row_unique hw h r' r hr' hr a ha' ha, fun e => e ▸ ha⟩

/-! R79: the ranges of the rows in the address space. -/

theorem rowLast_lt_rowFirst (hw : Params) (h : hw.legal = true) (r r' : SectorRow) (hr : r ∈ sectorTable)
    (hr' : r' ∈ sectorTable) (hlt : r.name < r'.name) : rowLast hw r < rowFirst hw r' := by
  obtain ⟨-, h1, -, -⟩ := legal_bounds hw h
  obtain ⟨-, hbank⟩ := row_offsets_in_bank r hr
  unfold rowLast rowFirst
  rcases rows_ordered r hr r' hr' hlt with ⟨hb, hb'⟩ | ⟨hb, ho⟩
  · simp only [hb, hb', bankStart, if_true, if_false, Bool.false_eq_true] at hbank ⊢
    omega
  · rw [hb]
    exact Nat.add_lt_add_left ho _

/-- R79: rows that hold rising addresses have rising names. -/
theorem name_le_of_rowHolds (hw : Params) (h : hw.legal = true) (r r' : SectorRow) (hr : r ∈ sectorTable)
    (hr' : r' ∈ sectorTable) {a b : Nat} (ha : rowHolds hw a r = true) (hb : rowHolds hw b r' = true) (hab : a ≤ b) :
    r.name ≤ r'.name := by
  rw [rowHolds_iff] at ha hb
  by_contra hn
  have := rowLast_lt_rowFirst hw h r' r hr' hr (BitVec.not_le.mp hn)
  omega

/-- Two addresses of the region in order resolve to rows in order. -/
theorem resolve_rows_of_le (hw : Params) (h : hw.legal = true) {a b : Word} (ha : hw.flashStart ≤ a) (hab : a ≤ b)
    (hb : b ≤ hw.flashEnd) :
    ∃ r ∈ sectorTable, ∃ r' ∈ sectorTable, rowHolds hw a.toNat r = true ∧ rowHolds hw b.toNat r' = true ∧
      r.name ≤ r'.name ∧ resolve hw a = rowInfo hw r ∧ resolve hw b = rowInfo hw r' := by
  obtain ⟨r, hr, hra, ea⟩ := resolve_row hw h a ((inRegion_iff hw _).mpr ⟨ha, hab.trans hb⟩)
  obtain ⟨r', hr', hrb, eb⟩ := resolve_row hw h b ((inRegion_iff hw _).mpr ⟨ha.trans hab, hb⟩)
  exact ⟨r, hr, r', hr', hra, hrb, name_le_of_rowHolds hw h r r' hr hr' hra hrb hab, ea, eb⟩

/-- R52: a row is in bank1 exactly when the addresses it holds are. -/
theorem inBank1_of_rowHolds (hw : Params) (h : hw.legal = true) (r : SectorRow) (hr : r ∈ sectorTable) (a : Nat)
    (ha : rowHolds hw a r = true) : r.inBank1 = true ↔ hw.bank1Start.toNat ≤ a := by
  obtain ⟨-, h1, -, -⟩ := legal_bounds hw h
  obtain ⟨-, hbank⟩ := row_offsets_in_bank r hr
  rw [rowHolds_iff, rowFirst, rowLast] at ha
  cases hb : r.inBank1 <;> simp only [hb, bankStart, if_true, if_false, Bool.false_eq_true] at hbank ha
  · simp only [Bool.false_eq_true, false_iff]
    omega
  · simp only [true_iff]
    omega

/-- R79: the first byte of a row's range, as an address. -/
theorem exists_rowHolds (hw : Params) (h : hw.legal = true) (r : SectorRow) (hr : r ∈ sectorTable) :
    ∃ a : Word, rowHolds hw a.toNat r = true :=
  ⟨_, rowHolds_offset hw h r hr r.first (BitVec.le_refl _) (row_offsets_in_bank r hr).1⟩

theorem rowFirst_of_follows (hw : Params) (h : hw.legal = true) {r next : SectorRow} (hf : RowFollows r next) :
    rowFirst hw next = rowLast hw r + 1 := by
  obtain ⟨-, h1, -, -⟩ := legal_bounds hw h
  unfold rowFirst rowLast
  rcases hf with ⟨hb, ho⟩ | ⟨hb, hb', hl, hf⟩
  · rw [hb, ho, Nat.add_assoc]
  · rw [hb, hb', hl, hf]
    simp only [bankStart, if_true, if_false, Bool.false_eq_true]
    omega

/-! R79: the reported bounds. -/

/-- The as-built exception: the row's reported bounds lie in bank0, its range in bank1. -/
def BoundsMoved (hw : Params) (r : SectorRow) : Prop := hw.b1sBase = .asBuilt ∧ r.fromB1s = true

theorem rowBoundsBase_moved (hw : Params) (r : SectorRow) (hm : BoundsMoved hw r) :
    rowBoundsBase hw r = hw.bank0Start := by
  obtain ⟨hbase, hr⟩ := hm
  rw [rowBoundsBase, if_pos hr, b1sAddr, hbase]

/-- Elsewhere the reported bounds are those of the row's own bank. -/
theorem rowBoundsBase_bankStart (hw : Params) (r : SectorRow) (hr : r ∈ sectorTable) (hm : ¬ BoundsMoved hw r) :
    rowBoundsBase hw r = bankStart hw r.inBank1 := by
  unfold rowBoundsBase
  split
  · next hb =>
    have hbase : hw.b1sBase = .corrected := by
      cases e : hw.b1sBase with
      | asBuilt => exact absurd ⟨e, hb⟩ hm
      | corrected => rfl
    rw [b1sAddr, hbase, (fromB1s_in_bank1 r hr hb).1]
    rfl
  · rfl

theorem rowBoundsBase_congr (hw : Params) (r r' : SectorRow) (hbank : r'.inBank1 = r.inBank1)
    (hb1s : r'.fromB1s = r.fromB1s) : rowBoundsBase hw r' = rowBoundsBase hw r := by
  rw [rowBoundsBase, rowBoundsBase, hbank, hb1s]

/-- R31: outside the as-built exception the reported bounds hold the addresses that resolve to the row. -/
theorem reported_bounds_hold (hw : Params) (h : hw.legal = true) (r : SectorRow) (hr : r ∈ sectorTable) (a : Word)
    (ha : rowHolds hw a.toNat r = true) (hm : ¬ BoundsMoved hw r) :
    (rowInfo hw r).sectorStartAddr ≤ a ∧ a ≤ (rowInfo hw r).sectorEndAddr := by
  obtain ⟨-, h1, -, htop⟩ := legal_bounds hw h
  obtain ⟨-, hbank⟩ := row_offsets_in_bank r hr
  rw [rowHolds_iff, rowFirst, rowLast] at ha
  simp only [rowInfo, rowBoundsBase_bankStart hw r hr hm]
  cases hb : r.inBank1 <;> simp only [hb, bankStart, if_true, if_false, Bool.false_eq_true] at hbank ha ⊢ <;> bv_omega

/-- R31, R108: in the as-built exception the reported bounds lie in bank0. -/
theorem moved_bounds_in_bank0 (hw : Params) (h : hw.legal = true) (r : SectorRow) (hr : r ∈ sectorTable)
    (hm : BoundsMoved hw r) :
    hw.bank0Start ≤ (rowInfo hw r).sectorStartAddr ∧ (rowInfo hw r).sectorStartAddr ≤ (rowInfo hw r).sectorEndAddr ∧
      (rowInfo hw r).sectorEndAddr < hw.bank1Start := by
  obtain ⟨-, h1, -, htop⟩ := legal_bounds hw h
  obtain ⟨hle, -⟩ := row_offsets_in_bank r hr
  obtain ⟨-, hlast⟩ := fromB1s_in_bank1 r hr hm.2
  simp only [rowInfo, rowBoundsBase_moved hw r hm]
  bv_omega

end Sys2Proof.Machine
end

section
/-! The obligations of what follows from the resolver's branches (spec/40_resolver.md section 3). -/

open Sys2Proof Sys2Proof.Machine

/-- Settles O18: in the region both are the record of the one row that holds the address; outside no row does. -/
theorem resolverEqualsSectorTable : Obligations.ResolverEqualsSectorTable := by
  intro hw a hl
  cases ha : inRegion hw a.toNat with
  | true =>
    obtain ⟨r, hr, hra, e⟩ := resolve_row hw hl a ha
    exact ⟨e.trans (tableResolve_of_rowHolds hw hl a r hr hra).symm, countP_rowHolds hw hl _ r hr hra⟩
  | false =>
    have hnone := no_row_outside hw hl a.toNat ha
    refine ⟨?_, List.countP_eq_zero.mpr hnone⟩
    rw [resolve_outside_region hw a ha, tableResolve, List.find?_eq_none.mpr hnone]

/-- Settles O19: the record is that of the row holding the address. -/
theorem recordIsValidOrAllSentinels : Obligations.RecordIsValidOrAllSentinels := by
  intro hw a hl
  refine ⟨resolve_outside_region hw a, fun ha => ?_⟩
  obtain ⟨r, hr, hra, e⟩ := resolve_row hw hl a ha
  obtain ⟨hname, hsize, hlast⟩ := row_shape r hr
  have hmoved : BoundsMoved hw r ↔ hw.b1sBase = .asBuilt ∧ 0xC ≤ r.name ∧ r.name ≤ 0xF :=
    and_congr_right fun _ => fromB1s_iff r hr
  rw [e]
  refine ⟨hname, ⟨r, hr, rfl, rfl⟩, hsize, ?lastByte, fun hm => ?moved, fun hm => ?unmoved⟩
  case lastByte => simp only [rowInfo, hlast, add_assoc, add_sub_assoc]
  case moved =>
    have hm := hmoved.mpr hm
    obtain ⟨hfirst, hle, hend⟩ := moved_bounds_in_bank0 hw hl r hr hm
    exact ⟨hfirst, hle, hend, (inBank1_of_rowHolds hw hl r hr _ hra).mp (fromB1s_in_bank1 r hr hm.2).1⟩
  case unmoved => exact reported_bounds_hold hw hl r hr a hra (mt hmoved.mp hm)

/-- Settles O20: adjacent rows report adjacent bounds where the base is the same, and their ranges follow each other. -/
theorem consecutiveSectorsAreAdjacent : Obligations.ConsecutiveSectorsAreAdjacent := by
  refine ⟨fun hw a b hl ha hb => ?bounds, fun hw hl => ?ranges⟩
  case bounds =>
    obtain ⟨r, hr, -, ea⟩ := resolve_row hw hl a ha
    obtain ⟨r', hr', -, eb⟩ := resolve_row hw hl b hb
    rw [ea, eb]
    intro hname hne
    obtain ⟨hbank, hfirst, hbase⟩ := rows_adjacent r hr r' hr' hname hne
    refine ⟨fun ⟨hasBuilt, hF⟩ => ?exception, fun hm => ?regular⟩
    case exception =>
      obtain ⟨hb1s, hb1s', hF'⟩ := (if_pos hF).mp hbase
      have hbank1 : r'.inBank1 = true := hbank.trans (fromB1s_in_bank1 r hr hb1s).1
      simp only [rowInfo]
      rw [add_assoc, ← hfirst, hF', rowBoundsBase_moved hw r ⟨hasBuilt, hb1s⟩,
        rowBoundsBase_bankStart hw r' hr' (by simp [BoundsMoved, hb1s']), hbank1]
      exact ⟨rfl, rfl⟩
    case regular =>
      have hsame : rowBoundsBase hw r' = rowBoundsBase hw r := by
        by_cases hF : r.name = 0xF
        · obtain ⟨hb1s, hb1s', -⟩ := (if_pos hF).mp hbase
          rw [rowBoundsBase_bankStart hw r hr fun h => hm ⟨h.1, hF⟩,
            rowBoundsBase_bankStart hw r' hr' (by simp [BoundsMoved, hb1s']), hbank]
        · exact rowBoundsBase_congr hw r r' hbank ((if_neg hF).mp hbase)
      simp only [rowInfo]
      rw [hsame, hfirst, add_assoc]
  case ranges =>
    obtain ⟨hstart, h1, hend, -⟩ := legal_bounds hw hl
    refine ⟨?first, ?last, sectorTable_follows.imp fun r next => rowFirst_of_follows hw hl⟩
    case first => rw [hstart]; rfl
    case last =>
      refine congrArg some ?_
      show hw.bank1Start.toNat + 0x1FFFFF = _
      omega

/-- Settles O22, by the row of the address. -/
theorem inlineNumberAgreesWithLookup : Obligations.InlineNumberAgreesWithLookup := by
  intro hw a hl ha
  obtain ⟨r, hr, -, e⟩ := resolve_row hw hl a ha
  rw [e]
  exact ⟨r.selector, selectorOfName_row r hr, rfl⟩

/-- Settles O21: rows in address order have rising names and, in a bank, rising sizes. -/
theorem namesRiseWithTheAddress : Obligations.NamesRiseWithTheAddress := by
  intro hw hl
  obtain ⟨-, h1, -, -⟩ := legal_bounds hw hl
  refine ⟨fun a b ha hab hb => ?names, fun name hname => ?everyName, fun a ha => ?numbers,
    fun a b ha hab hb hbank => ?sizes, ?below, ?above⟩
  case names =>
    obtain ⟨r, -, r', -, -, -, hle, ea, eb⟩ := resolve_rows_of_le hw hl ha hab hb
    rwa [ea, eb]
  case everyName =>
    obtain ⟨r, hr, rfl⟩ := row_of_name name (Nat.lt_succ_of_le hname)
    obtain ⟨a, ha⟩ := exists_rowHolds hw hl r hr
    exact ⟨a, row_in_region hw hl r hr _ ha, by rw [resolve_of_rowHolds hw hl a r hr ha]; rfl⟩
  case numbers =>
    obtain ⟨k, hk, e⟩ := inlineNumberAgreesWithLookup hw a hl ha
    obtain ⟨-, hinside⟩ := recordIsValidOrAllSentinels hw a hl
    obtain ⟨k', hk', e'⟩ := selectorOfName_number _ (hinside ha).1
    obtain rfl : k = k' := Option.some_inj.mp (hk.symm.trans hk')
    exact e.trans e'
  case sizes =>
    obtain ⟨r, hr, r', hr', hra, hrb, hle, ea, eb⟩ := resolve_rows_of_le hw hl ha hab hb
    rw [ea, eb]
    refine sizes_rise r hr r' hr' (Bool.eq_iff_iff.mpr ?_) hle
    rw [inBank1_of_rowHolds hw hl r hr _ hra, inBank1_of_rowHolds hw hl r' hr' _ hrb]
    bv_omega
  case below =>
    rw [show hw.bank1Start - 1 = hw.bank0Start + 0xFFFFF by bv_omega, resolve_in_bank0 hw hl _ (by decide)]
    rfl
  case above =>
    rw [show hw.bank1Start = hw.bank1Start + 0 from (add_zero _).symm, resolve_in_bank1 hw hl _ (by decide)]
    rfl

end

section
/-! SUPPORT. Where a step leaves the sequencer (R23), what it leaves of the flash's canonical form, and the steps that wait or are refused. -/

namespace Sys2Proof.Machine

/-! R23: the sequencer's state register. -/

/-- The states that each command's acceptance may enter. -/
def AcceptsInto (i : Instr) (q : Seq) : Prop :=
  match i with
  | .resolve _ => q = .idle
  | .name2num _ => q = .idle ∨ q = .halted
  | .erase _ => q = .erUnlock ∨ q = .halted
  | .write _ _ _ => q = .wrUnlock
  | .read _ n => q = if n = 0 then .idle else .rdByte

theorem exec_acceptsInto (i : Instr) (s t : State) (h : exec i s = .next t) : AcceptsInto i t.seq := by
  cases i with
  | resolve a =>
    obtain ⟨-, rfl⟩ := execResolve_next a s t h
    rfl
  | name2num a =>
    obtain ⟨-, ⟨k, -, rfl⟩ | ⟨-, rfl⟩⟩ := execName2num_next a s t h
    · exact .inl rfl
    · exact .inr rfl
  | erase a =>
    obtain ⟨-, ⟨-, rfl⟩ | ⟨-, rfl⟩⟩ := execErase_next a s t h
    · exact .inr rfl
    · exact .inl rfl
  | write a n d =>
    obtain ⟨-, -, rfl⟩ := execWrite_next a n d s t h
    rfl
  | read a n =>
    obtain ⟨-, ⟨hn, rfl⟩ | ⟨hn, rfl⟩⟩ := execRead_next a n s t h
    · exact (if_pos hn).symm
    · exact (if_neg hn).symm

/-- Every acceptance is a listed move from `IDLE`. -/
theorem AcceptsInto.seqMove {i : Instr} {q : Seq} (h : AcceptsInto i q) : SeqMove .idle q := by
  cases i with
  | resolve a => exact .inl h
  | name2num name => obtain rfl | rfl : q = .idle ∨ q = .halted := h <;> simp [SeqMove]
  | erase a => obtain rfl | rfl : q = .erUnlock ∨ q = .halted := h <;> simp [SeqMove]
  | write a n d => exact .inr (.inr (.inr (.inl h)))
  | read a n =>
    have hq : q = if n = 0 then .idle else .rdByte := h
    split at hq <;> simp [SeqMove, hq]

theorem SeqMove.ite {q a b : Seq} {p : Prop} [Decidable p] (ha : SeqMove q a) (hb : SeqMove q b) :
    SeqMove q (if p then a else b) := by
  split <;> assumption

/-- A chain step waits or makes a listed move. -/
theorem chainStep_seqMove (s t : State) (hs : s.seq ≠ .idle) (h : chainStep s = .next t) :
    t = s ∨ SeqMove s.seq t.seq := by
  rcases chainStep_next s t hs h with rfl |
    ⟨r, rest, -, ⟨e, rfl⟩ | ⟨e, rfl⟩ | ⟨e, -, rfl⟩ | ⟨e, -, rfl⟩ | ⟨e, rfl⟩ | ⟨e, rfl⟩ | ⟨e, rfl⟩ | ⟨e, -, rfl⟩ |
      ⟨e, -, rfl⟩ | ⟨e, rfl⟩⟩ |
    ⟨r, rest, -, e, ⟨-, rfl⟩ | ⟨-, rfl⟩⟩
  · exact .inl rfl
  all_goals
    refine .inr ?_
    rw [e]
  · exact rfl
  · exact rfl
  · exact .inl rfl
  · exact .inr rfl
  · exact rfl
  · exact rfl
  · exact .ite (.inr rfl) (.inl rfl)
  · exact .ite (.inl rfl) (.inr (.inl rfl))
  · exact .inr (.inr rfl)
  · exact rfl
  · exact .inl rfl
  · exact .inr rfl

/-! The canonical form. -/

theorem memoryWf_ctlErase (n : Word) (r : CtlReply) (s : State) (h : memoryWf s.flash = true) :
    memoryWf (ctlErase n r s).flash = true :=
  memoryWf_applyReply r _ _ s h (memoryWf_erasedSector s.hw n s.flash h)

theorem memoryWf_ctlProgram (a : Word) (v : Byte) (r : CtlReply) (s : State) (h : memoryWf s.flash = true) :
    memoryWf (ctlProgram a v r s).flash = true :=
  memoryWf_applyReply r _ _ s h (memoryWf_programmedByte s.hw a v s.flash h)

/-- R72: an acceptance leaves the flash as it is. -/
theorem exec_flash (i : Instr) (s t : State) (h : exec i s = .next t) : t.flash = s.flash := by
  cases i with
  | resolve a =>
    obtain ⟨-, rfl⟩ := execResolve_next a s t h
    rfl
  | name2num a => obtain ⟨-, ⟨k, -, rfl⟩ | ⟨-, rfl⟩⟩ := execName2num_next a s t h <;> rfl
  | erase a => obtain ⟨-, ⟨-, rfl⟩ | ⟨-, rfl⟩⟩ := execErase_next a s t h <;> rfl
  | write a n d =>
    obtain ⟨-, -, rfl⟩ := execWrite_next a n d s t h
    rfl
  | read a n => obtain ⟨-, ⟨-, rfl⟩ | ⟨-, rfl⟩⟩ := execRead_next a n s t h <;> rfl

theorem chainStep_memoryWf (s t : State) (hs : s.seq ≠ .idle) (hw : memoryWf s.flash = true)
    (h : chainStep s = .next t) : memoryWf t.flash = true := by
  rcases chainStep_flash_cases s t hs h with hf | ⟨-, r, hf⟩ | ⟨-, r, hf⟩ <;> rw [hf]
  · exact hw
  · exact memoryWf_ctlErase _ r s hw
  · exact memoryWf_ctlProgram _ _ r s hw

/-! The flash after an answer of the environment's own. -/

theorem ctlErase_scripted_flash (n : Word) (st : Status) (flags : CtlFlags) (cells : List Host.Cell) (s : State) :
    (ctlErase n (.scripted st flags cells) s).flash = patchCells s.hw (inSector s.hw n) s.flash cells := rfl

theorem ctlProgram_scripted_flash (a : Word) (v : Byte) (st : Status) (flags : CtlFlags) (cells : List Host.Cell)
    (s : State) : (ctlProgram a v (.scripted st flags cells) s).flash =
      patchCells s.hw (fun x => decide (x = a.toNat)) s.flash cells := rfl

/-- U2, U3: the one listed byte of a patch, where the target and the region allow it. -/
theorem readCell_patchCells_singleton (hw : Params) (target : Nat → Bool) (m : Memory) (x : Nat) (b : Byte)
    (ht : target x = true) (hr : inRegion hw x = true) : readCell (patchCells hw target m [(x, b)]) x = b :=
  readCell_patchCells_listed hw target m (fun _ => b) [x] x (by simp) ht hr

/-! R66: a locked reference controller changes no byte. -/

theorem ctlErase_reference_locked_flash (n : Word) (s : State) (h : s.ctlUnlocked = false) :
    (ctlErase n .reference s).flash = s.flash := if_neg (by simp [h])

theorem ctlProgram_reference_locked_flash (a : Word) (v : Byte) (s : State) (h : s.ctlUnlocked = false) :
    (ctlProgram a v .reference s).flash = s.flash := if_neg (by simp [h])

end Sys2Proof.Machine
end

section
/-! The obligations of the step: what it keeps, where it goes, when it waits or is refused, and the controller's answers. -/

open Sys2Proof Sys2Proof.Machine

/-- Settles O53: no step writes the parameters, and whatever writes the flash keeps its canonical form. -/
theorem memoryInvariantIsKept : Obligations.MemoryInvariantIsKept := by
  rintro s t ⟨hl, hw⟩ h
  obtain ⟨hhw, -⟩ := historyGrowsParametersStay s t h
  refine ⟨hhw ▸ hl, ?_⟩
  obtain ⟨-, ⟨found, -, rfl⟩ | ⟨-, -, -, rfl⟩ | ⟨frame, rest, i, -, -, -, -, hx⟩ | ⟨-, hs, hx⟩⟩ := step_cases s t h
  · exact memoryWf_patchCells s.hw _ s.flash found.cells hw
  · exact hw
  · rwa [exec_flash i _ t hx]
  · exact chainStep_memoryWf s t hs hw hx

/-- Settles O57: a wait, an acceptance, which leaves `IDLE` as its command says, or a chain step. -/
theorem sequencerMovesAsListed : Obligations.SequencerMovesAsListed := by
  refine ⟨fun s t hr h => ?move, exec_acceptsInto⟩
  obtain ⟨-, ⟨found, hf, -⟩ | ⟨-, -, -, rfl⟩ | ⟨frame, rest, i, -, hs, -, -, hx⟩ | ⟨-, hs, hx⟩⟩ := step_cases s t h
  · simp [hr] at hf
  · exact .inl rfl
  · exact .inr (hs ▸ (exec_acceptsInto i _ t hx).seqMove)
  · exact chainStep_seqMove s t hs hx

/-- Settles O6: an enabled state has a legal configuration and no reset asked for. -/
theorem stepRunsTheDecodedCommand : Obligations.StepRunsTheDecodedCommand :=
  fun s i frame rest ⟨hl, hr⟩ hs ho hd => step_command s i frame rest hl hr hs ho hd

/-- Settles O8: with no offer there is nothing to run. -/
theorem idleBlockWaitsForACommand : Obligations.IdleBlockWaitsForACommand := by
  rintro s ⟨hl, hr⟩ hs ho
  simp [step, oneStep, hl, hr, hs, nextOffer, ho]

/-- Settles O9: each breach contradicts the bounds of a legal configuration. -/
theorem illegalConfigurationIsRefused : Obligations.IllegalConfigurationIsRefused := by
  intro s hbreach
  refine if_neg fun hl => ?_
  obtain ⟨hstart, h1, hend, htop⟩ := legal_bounds s.hw hl
  rcases hbreach with h | h | h | h
  · exact h hstart
  · exact h h1
  · omega
  · bv_omega

/-- Settles O59: a scripted answer patches its target, the reference answer changes it only unlocked. -/
theorem referenceControllerAnswers : Obligations.ReferenceControllerAnswers := by
  intro s
  refine ⟨replyStatus_reference s, fun st flags cells => rfl, rfl, rfl, rfl, fun n st flags => rfl,
    fun a v st flags => rfl, fun a v b st flags ha => ?program, fun r hr x b st flags hl hx => ?erase,
    fun hu n a v => ?locked⟩
  case program =>
    rw [ctlProgram_scripted_flash]
    exact readCell_patchCells_singleton _ _ _ _ b (decide_eq_true rfl) ha
  case erase =>
    rw [ctlErase_scripted_flash]
    exact readCell_patchCells_singleton _ _ _ x b ((inSector_ctlIdx s.hw r hr x).trans hx)
      (row_in_region s.hw hl r hr x hx)
  case locked => exact ⟨ctlErase_reference_locked_flash n s hu, ctlProgram_reference_locked_flash a v s hu⟩

end
